-- ==== Sys2Proof/Word.lean ====
section
/-! DEFINITION. The two word types of the BCU's interface (spec/10_state.md R8, R10, R11; spec/30_encoding.md R21). -/

namespace Sys2Proof

/-- A value on an operand port `A`, `B`, `C` or on the result port `R`: 64 bits (R10, R11). -/
abbrev Word := BitVec 64

/-- A command word `CMD`: 32 bits, bit 0 the least significant (R21). -/
abbrev Command := BitVec 32

end Sys2Proof
end

