-- ==== Sys2Proof/Config.lean ====
section
/-! DEFINITION. The implementation parameters of spec/00_scope.md section 4: the two the spec decides
(`EXPAND_LSB_UPPER`, `PACK_TIE`), each with its alternative kept as a value of its type, and the two it
leaves OPEN (`UNDEF_RESULT`, `NAN_PACK_MANT`), with the idle port values, as constants with no body.
`IMPL` and `LATENCY` are open too and no rule's result depends on them: notes/assumptions/3.md and 9.md. -/

namespace Sys2Proof

/-- `EXPAND_LSB_UPPER`: what `EXPLSB` does with the bits above the lowest set bit (R33). -/
inductive ExpandLsbUpper where
  /-- the result is the mask `ones(j+1)` alone -/
  | zero
  /-- those bits of the operand are kept -/
  | keep
  deriving DecidableEq, Repr

/-- `PACK_TIE`: where `FPACK` and `F32TOF16` send an exact tie (R64). -/
inductive PackTie where
  /-- to the larger magnitude -/
  | away
  /-- to the even pattern -/
  | even
  deriving DecidableEq, Repr

/-- The spec's choice D11 (R33): the upper bits are zero. -/
def Config.expandLsbUpper : ExpandLsbUpper := .zero

/-- The spec's choice D14 (R64): ties go away from zero. -/
def Config.packTie : PackTie := .away

/-- `UNDEF_RESULT` (R7): the 64 result bits of draw number `n` when the status is `UNDEF` or `ILLEGAL`.
A free value: it has no body, so no proof can see what it is. -/
opaque Config.undefResult (n : Nat) : Word

/-- `NAN_PACK_MANT` (R63): the free part of the mantissa of a packed NaN at draw number `n`, which may depend on
the Float's mantissa and on the narrow mantissa width. The bound of R63 (nonzero, `M` bits) is put on it by
`Machine.nanMantissa`. A free value. -/
opaque Config.nanPackMant (n : Nat) (m32 : BitVec 23) (m : Nat) : Nat

/-- The value on port `R` at draw number `n` while no response is being given (R15: unspecified). A free value. -/
opaque Config.idleR (n : Nat) : Word

/-- The value on port `ST` at draw number `n` while no response is being given (R15: unspecified). A free value. -/
opaque Config.idleSt (n : Nat) : BitVec 2

end Sys2Proof
end

