-- ==== Sys2Proof/Syntax.lean ====
section
/-! DEFINITION. The instructions of the BCU: one constructor per row of spec/opcode_table.json (R22, R23).
An instruction names no operand: the three operands are on ports `A`, `B`, `C` (R24), and the only fields a command
word carries beside its row are the generic float format of `FPACK` and `FUNPACK` (R25). -/

namespace Sys2Proof

/-- The 72 operations at their widths and formats, in the order of the opcode table. -/
inductive Instr where
  /-- `BSWAP.8`: reverse byte order, R29. -/
  | bswap_8
  /-- `BSWAP.16`: reverse byte order, R29. -/
  | bswap_16
  /-- `BSWAP.32`: reverse byte order, R29. -/
  | bswap_32
  /-- `BSWAP.64`: reverse byte order, R29. -/
  | bswap_64
  /-- `CLRLSB.32`: clear the lowest set bit, R32. -/
  | clrlsb_32
  /-- `CLRLSB.64`: clear the lowest set bit, R32. -/
  | clrlsb_64
  /-- `EXPLSB.32`: expand the lowest set bit downward, R33. -/
  | explsb_32
  /-- `EXPLSB.64`: expand the lowest set bit downward, R33. -/
  | explsb_64
  /-- `LSB.32`: isolate the lowest set bit, R34. -/
  | lsb_32
  /-- `LSB.64`: isolate the lowest set bit, R34. -/
  | lsb_64
  /-- `EXPHLSB.32`: expand the lowest set bit upward, R35. -/
  | exphlsb_32
  /-- `EXPHLSB.64`: expand the lowest set bit upward, R35. -/
  | exphlsb_64
  /-- `EXPMSB.32`: expand the highest set bit downward, R36. -/
  | expmsb_32
  /-- `EXPMSB.64`: expand the highest set bit downward, R36. -/
  | expmsb_64
  /-- `IDXBIT.32`: index of a single set bit, R38. -/
  | idxbit_32
  /-- `IDXBIT.64`: index of a single set bit, R38. -/
  | idxbit_64
  /-- `IDXEXP.32`: index of the top bit of an expanded mask, R39. -/
  | idxexp_32
  /-- `IDXEXP.64`: index of the top bit of an expanded mask, R39. -/
  | idxexp_64
  /-- `TZCNT.32`: count trailing zeros, R40. -/
  | tzcnt_32
  /-- `TZCNT.64`: count trailing zeros, R40. -/
  | tzcnt_64
  /-- `IDXLSB.32`: index of the lowest set bit, R41. -/
  | idxlsb_32
  /-- `IDXLSB.64`: index of the lowest set bit, R41. -/
  | idxlsb_64
  /-- `LZCNT.32`: count leading zeros, R42. -/
  | lzcnt_32
  /-- `LZCNT.64`: count leading zeros, R42. -/
  | lzcnt_64
  /-- `IDXMSB.32`: index of the highest set bit, R43. -/
  | idxmsb_32
  /-- `IDXMSB.64`: index of the highest set bit, R43. -/
  | idxmsb_64
  /-- `MSB.32`: isolate the highest set bit, R37. -/
  | msb_32
  /-- `MSB.64`: isolate the highest set bit, R37. -/
  | msb_64
  /-- `LOG2.32`: integer base-2 logarithm, R44. -/
  | log2_32
  /-- `LOG2.64`: integer base-2 logarithm, R44. -/
  | log2_64
  /-- `BREV.32`: reverse bit order, R45. -/
  | brev_32
  /-- `BREV.64`: reverse bit order, R45. -/
  | brev_64
  /-- `POPCNT.32`: population count, R46. -/
  | popcnt_32
  /-- `POPCNT.64`: population count, R46. -/
  | popcnt_64
  /-- `BEXT.32`: extract a bit field, R47. -/
  | bext_32
  /-- `BEXT.64`: extract a bit field, R47. -/
  | bext_64
  /-- `DEINTL.32`: gather the even-slot bits, R48. -/
  | deintl_32
  /-- `DEINTL.64`: gather the even-slot bits, R48. -/
  | deintl_64
  /-- `INTL1.32`: scatter into the even slots, R49. -/
  | intl1_32
  /-- `INTL1.64`: scatter into the even slots, R49. -/
  | intl1_64
  /-- `INTL2.32`: interleave two half-width values, R50. -/
  | intl2_32
  /-- `INTL2.64`: interleave two half-width values, R50. -/
  | intl2_64
  /-- `SEL.32`: bitwise select, R51. -/
  | sel_32
  /-- `SEL.64`: bitwise select, R51. -/
  | sel_64
  /-- `HASZB.32`: is some byte lane zero, R52. -/
  | haszb_32
  /-- `HASZB.64`: is some byte lane zero, R52. -/
  | haszb_64
  /-- `ISPOW2.32`: power of two or zero, R53. -/
  | ispow2_32
  /-- `ISPOW2.64`: power of two or zero, R53. -/
  | ispow2_64
  /-- `FLP2.32`: round down to a power of two, R54. -/
  | flp2_32
  /-- `FLP2.64`: round down to a power of two, R54. -/
  | flp2_64
  /-- `CLP2.32`: round up to a power of two, R55. -/
  | clp2_32
  /-- `CLP2.64`: round up to a power of two, R55. -/
  | clp2_64
  /-- `U32TOU24`: 32-bit integer to `uint24`, R30. -/
  | u32tou24
  /-- `U24TOU32`: `uint24` to 32-bit integer, R31. -/
  | u24tou32
  /-- `FSIGN.H`: sign field, R59. -/
  | fsign_h
  /-- `FSIGN.F`: sign field, R59. -/
  | fsign_f
  /-- `FSIGN.D`: sign field, R59. -/
  | fsign_d
  /-- `FEXP.H`: stored exponent field, R60. -/
  | fexp_h
  /-- `FEXP.F`: stored exponent field, R60. -/
  | fexp_f
  /-- `FEXP.D`: stored exponent field, R60. -/
  | fexp_d
  /-- `FMANT.H`: stored mantissa field, R61. -/
  | fmant_h
  /-- `FMANT.F`: stored mantissa field, R61. -/
  | fmant_f
  /-- `FMANT.D`: stored mantissa field, R61. -/
  | fmant_d
  /-- `FMAKE.H`: pattern from a field triple, R62. -/
  | fmake_h
  /-- `FMAKE.F`: pattern from a field triple, R62. -/
  | fmake_f
  /-- `FMAKE.D`: pattern from a field triple, R62. -/
  | fmake_d
  /-- `FPACK`: narrow a Float to the format `(FS, FE, FM)`, R65. -/
  | fpack (fs fe fm : Nat)
  /-- `FUNPACK`: widen a triple of the format `(FS, FE, FM)` to a Float, R66. -/
  | funpack (fs fe fm : Nat)
  /-- `F32TOF16`: Float to Half, R67. -/
  | f32tof16
  /-- `F16TOF32`: Half to Float, R68. -/
  | f16tof32
  /-- `U32TOF64`: 32-bit integer to Double, R69. -/
  | u32tof64
  /-- `F64TOU32`: Double to 32-bit integer, R70. -/
  | f64tou32
  deriving DecidableEq, Repr

end Sys2Proof
end

