-- ==== Sys2Proof/WellFormed.lean ====
section
/-! DEFINITION. Which instructions a command word can carry: the range of the generic float format
(spec/30_encoding.md R25; outside it the command is illegal, R26 clause 5). -/

namespace Sys2Proof

/-- The legal range of a generic format: `S` in `0, 1`, `2 <= E <= 8`, `1 <= M <= 23` (R25). -/
def formatLegal (fs fe fm : Nat) : Bool :=
  fs ≤ 1 && (2 ≤ fe && fe ≤ 8) && (1 ≤ fm && fm ≤ 23)

/-- An instruction some legal command word stands for. -/
def Instr.wf : Instr → Bool
  | .fpack fs fe fm => formatLegal fs fe fm
  | .funpack fs fe fm => formatLegal fs fe fm
  | .bswap_8 | .bswap_16 | .bswap_32 | .bswap_64 | .clrlsb_32 | .clrlsb_64 | .explsb_32 | .explsb_64
  | .lsb_32 | .lsb_64 | .exphlsb_32 | .exphlsb_64 | .expmsb_32 | .expmsb_64 | .idxbit_32 | .idxbit_64
  | .idxexp_32 | .idxexp_64 | .tzcnt_32 | .tzcnt_64 | .idxlsb_32 | .idxlsb_64 | .lzcnt_32 | .lzcnt_64
  | .idxmsb_32 | .idxmsb_64 | .msb_32 | .msb_64 | .log2_32 | .log2_64 | .brev_32 | .brev_64
  | .popcnt_32 | .popcnt_64 | .bext_32 | .bext_64 | .deintl_32 | .deintl_64 | .intl1_32 | .intl1_64
  | .intl2_32 | .intl2_64 | .sel_32 | .sel_64 | .haszb_32 | .haszb_64 | .ispow2_32 | .ispow2_64
  | .flp2_32 | .flp2_64 | .clp2_32 | .clp2_64 | .u32tou24 | .u24tou32 | .fsign_h | .fsign_f
  | .fsign_d | .fexp_h | .fexp_f | .fexp_d | .fmant_h | .fmant_f | .fmant_d | .fmake_h
  | .fmake_f | .fmake_d | .f32tof16 | .f16tof32 | .u32tof64 | .f64tou32 => true

end Sys2Proof
end

