-- ==== Sys2Proof/Decode.lean ====
section
/-! DEFINITION. The decoder, total on any command word, and after it the encoder (spec/30_encoding.md R21 to R27). -/

namespace Sys2Proof

/-- Why a command word is illegal: the five clauses of R26, in its order. -/
inductive IllegalReason where
  /-- clause 1: `CMD[31:20] != 0` -/
  | reservedBits
  /-- clause 2: `OPC` is reserved in R22 -/
  | reservedOpcode
  /-- clause 3: `WSEL` is not legal for the operation's class (R23) -/
  | widthSelect
  /-- clause 4: format bits set on an operation that takes no format -/
  | strayFormatBits
  /-- clause 5: format out of range on `FPACK` or `FUNPACK` (R25) -/
  | formatRange
  deriving DecidableEq, Repr

/-- The 37 operations of the opcode map (R22), in its order. -/
inductive Op where
  | bswap | clrlsb | explsb | lsb | exphlsb | expmsb | idxbit | idxexp
  | tzcnt | idxlsb | lzcnt | idxmsb | msb | log2 | brev | popcnt
  | bext | deintl | intl1 | intl2 | sel | haszb | ispow2 | flp2
  | clp2 | u32tou24 | u24tou32 | fsign | fexp | fmant | fmake | fpack
  | funpack | f32tof16 | f16tof32 | u32tof64 | f64tou32
  deriving DecidableEq, Repr

/-! ## The fields of a command word (R21) -/

def opcOf (w : Command) : Nat := (w.extractLsb' 0 8).toNat
def wselOf (w : Command) : Nat := (w.extractLsb' 8 2).toNat
def fsOf (w : Command) : Nat := (w.extractLsb' 10 1).toNat
def feOf (w : Command) : Nat := (w.extractLsb' 11 4).toNat
def fmOf (w : Command) : Nat := (w.extractLsb' 15 5).toNat

/-- `CMD[31:20]`, which must be zero. -/
def reservedOf (w : Command) : Nat := (w.extractLsb' 20 12).toNat

/-- `CMD[19:10]`: the three format fields together (R26 clause 4). -/
def formatBitsOf (w : Command) : Nat := (w.extractLsb' 10 10).toNat

/-! ## The opcode map (R22) -/

/-- The operation an `OPC` value selects; `none` where R22 has no row. -/
def Op.ofCode : Nat → Option Op
  | 0x01 => some .bswap
  | 0x02 => some .clrlsb
  | 0x03 => some .explsb
  | 0x04 => some .lsb
  | 0x05 => some .exphlsb
  | 0x06 => some .expmsb
  | 0x07 => some .idxbit
  | 0x08 => some .idxexp
  | 0x09 => some .tzcnt
  | 0x0A => some .idxlsb
  | 0x0B => some .lzcnt
  | 0x0C => some .idxmsb
  | 0x0D => some .msb
  | 0x0E => some .log2
  | 0x0F => some .brev
  | 0x10 => some .popcnt
  | 0x11 => some .bext
  | 0x12 => some .deintl
  | 0x13 => some .intl1
  | 0x14 => some .intl2
  | 0x15 => some .sel
  | 0x16 => some .haszb
  | 0x17 => some .ispow2
  | 0x18 => some .flp2
  | 0x19 => some .clp2
  | 0x1A => some .u32tou24
  | 0x1B => some .u24tou32
  | 0x20 => some .fsign
  | 0x21 => some .fexp
  | 0x22 => some .fmant
  | 0x23 => some .fmake
  | 0x24 => some .fpack
  | 0x25 => some .funpack
  | 0x26 => some .f32tof16
  | 0x27 => some .f16tof32
  | 0x28 => some .u32tof64
  | 0x29 => some .f64tou32
  | _ => none

/-- The `OPC` value of an operation. -/
def Op.code : Op → Nat
  | .bswap => 0x01
  | .clrlsb => 0x02
  | .explsb => 0x03
  | .lsb => 0x04
  | .exphlsb => 0x05
  | .expmsb => 0x06
  | .idxbit => 0x07
  | .idxexp => 0x08
  | .tzcnt => 0x09
  | .idxlsb => 0x0A
  | .lzcnt => 0x0B
  | .idxmsb => 0x0C
  | .msb => 0x0D
  | .log2 => 0x0E
  | .brev => 0x0F
  | .popcnt => 0x10
  | .bext => 0x11
  | .deintl => 0x12
  | .intl1 => 0x13
  | .intl2 => 0x14
  | .sel => 0x15
  | .haszb => 0x16
  | .ispow2 => 0x17
  | .flp2 => 0x18
  | .clp2 => 0x19
  | .u32tou24 => 0x1A
  | .u24tou32 => 0x1B
  | .fsign => 0x20
  | .fexp => 0x21
  | .fmant => 0x22
  | .fmake => 0x23
  | .fpack => 0x24
  | .funpack => 0x25
  | .f32tof16 => 0x26
  | .f16tof32 => 0x27
  | .u32tof64 => 0x28
  | .f64tou32 => 0x29

/-- The two operations that take a generic float format (R25). -/
def Op.takesFormat : Op → Bool
  | .fpack | .funpack => true
  | _ => false

/-- The row of the opcode table an operation and a `WSEL` value select (R23); `none` where `WSEL` is not legal for the
operation's class. -/
def Op.row (fs fe fm : Nat) : Op → Nat → Option Instr
  | .bswap, 0 => some .bswap_8
  | .bswap, 1 => some .bswap_16
  | .bswap, 2 => some .bswap_32
  | .bswap, 3 => some .bswap_64
  | .clrlsb, 2 => some .clrlsb_32
  | .clrlsb, 3 => some .clrlsb_64
  | .explsb, 2 => some .explsb_32
  | .explsb, 3 => some .explsb_64
  | .lsb, 2 => some .lsb_32
  | .lsb, 3 => some .lsb_64
  | .exphlsb, 2 => some .exphlsb_32
  | .exphlsb, 3 => some .exphlsb_64
  | .expmsb, 2 => some .expmsb_32
  | .expmsb, 3 => some .expmsb_64
  | .idxbit, 2 => some .idxbit_32
  | .idxbit, 3 => some .idxbit_64
  | .idxexp, 2 => some .idxexp_32
  | .idxexp, 3 => some .idxexp_64
  | .tzcnt, 2 => some .tzcnt_32
  | .tzcnt, 3 => some .tzcnt_64
  | .idxlsb, 2 => some .idxlsb_32
  | .idxlsb, 3 => some .idxlsb_64
  | .lzcnt, 2 => some .lzcnt_32
  | .lzcnt, 3 => some .lzcnt_64
  | .idxmsb, 2 => some .idxmsb_32
  | .idxmsb, 3 => some .idxmsb_64
  | .msb, 2 => some .msb_32
  | .msb, 3 => some .msb_64
  | .log2, 2 => some .log2_32
  | .log2, 3 => some .log2_64
  | .brev, 2 => some .brev_32
  | .brev, 3 => some .brev_64
  | .popcnt, 2 => some .popcnt_32
  | .popcnt, 3 => some .popcnt_64
  | .bext, 2 => some .bext_32
  | .bext, 3 => some .bext_64
  | .deintl, 2 => some .deintl_32
  | .deintl, 3 => some .deintl_64
  | .intl1, 2 => some .intl1_32
  | .intl1, 3 => some .intl1_64
  | .intl2, 2 => some .intl2_32
  | .intl2, 3 => some .intl2_64
  | .sel, 2 => some .sel_32
  | .sel, 3 => some .sel_64
  | .haszb, 2 => some .haszb_32
  | .haszb, 3 => some .haszb_64
  | .ispow2, 2 => some .ispow2_32
  | .ispow2, 3 => some .ispow2_64
  | .flp2, 2 => some .flp2_32
  | .flp2, 3 => some .flp2_64
  | .clp2, 2 => some .clp2_32
  | .clp2, 3 => some .clp2_64
  | .u32tou24, 0 => some .u32tou24
  | .u24tou32, 0 => some .u24tou32
  | .fsign, 1 => some .fsign_h
  | .fsign, 2 => some .fsign_f
  | .fsign, 3 => some .fsign_d
  | .fexp, 1 => some .fexp_h
  | .fexp, 2 => some .fexp_f
  | .fexp, 3 => some .fexp_d
  | .fmant, 1 => some .fmant_h
  | .fmant, 2 => some .fmant_f
  | .fmant, 3 => some .fmant_d
  | .fmake, 1 => some .fmake_h
  | .fmake, 2 => some .fmake_f
  | .fmake, 3 => some .fmake_d
  | .fpack, 0 => some (.fpack fs fe fm)
  | .funpack, 0 => some (.funpack fs fe fm)
  | .f32tof16, 0 => some .f32tof16
  | .f16tof32, 0 => some .f16tof32
  | .u32tof64, 0 => some .u32tof64
  | .f64tou32, 0 => some .f64tou32
  | _, _ => none

/-- What a command word says: one legal operation, or the first clause of R26 that makes it illegal (R27). -/
def decode (w : Command) : Except IllegalReason Instr :=
  if reservedOf w ≠ 0 then .error .reservedBits
  else match Op.ofCode (opcOf w) with
    | none => .error .reservedOpcode
    | some op => match op.row (fsOf w) (feOf w) (fmOf w) (wselOf w) with
      | none => .error .widthSelect
      | some i =>
        if op.takesFormat then
          if formatLegal (fsOf w) (feOf w) (fmOf w) then .ok i else .error .formatRange
        else if formatBitsOf w ≠ 0 then .error .strayFormatBits
        else .ok i

/-! ## The encoder -/

/-- `CMD = OPC | (WSEL << 8) | (FS << 10) | (FE << 11) | (FM << 15)` (spec/30_encoding.md section 7). -/
def commandWord (op : Op) (wsel fs fe fm : Nat) : Command :=
  BitVec.ofNat 32 op.code ||| BitVec.ofNat 32 wsel <<< 8 ||| BitVec.ofNat 32 fs <<< 10
    ||| BitVec.ofNat 32 fe <<< 11 ||| BitVec.ofNat 32 fm <<< 15

/-- The command word of a well-formed instruction. -/
def encode : Instr → Command
  | .bswap_8 => commandWord .bswap 0 0 0 0
  | .bswap_16 => commandWord .bswap 1 0 0 0
  | .bswap_32 => commandWord .bswap 2 0 0 0
  | .bswap_64 => commandWord .bswap 3 0 0 0
  | .clrlsb_32 => commandWord .clrlsb 2 0 0 0
  | .clrlsb_64 => commandWord .clrlsb 3 0 0 0
  | .explsb_32 => commandWord .explsb 2 0 0 0
  | .explsb_64 => commandWord .explsb 3 0 0 0
  | .lsb_32 => commandWord .lsb 2 0 0 0
  | .lsb_64 => commandWord .lsb 3 0 0 0
  | .exphlsb_32 => commandWord .exphlsb 2 0 0 0
  | .exphlsb_64 => commandWord .exphlsb 3 0 0 0
  | .expmsb_32 => commandWord .expmsb 2 0 0 0
  | .expmsb_64 => commandWord .expmsb 3 0 0 0
  | .idxbit_32 => commandWord .idxbit 2 0 0 0
  | .idxbit_64 => commandWord .idxbit 3 0 0 0
  | .idxexp_32 => commandWord .idxexp 2 0 0 0
  | .idxexp_64 => commandWord .idxexp 3 0 0 0
  | .tzcnt_32 => commandWord .tzcnt 2 0 0 0
  | .tzcnt_64 => commandWord .tzcnt 3 0 0 0
  | .idxlsb_32 => commandWord .idxlsb 2 0 0 0
  | .idxlsb_64 => commandWord .idxlsb 3 0 0 0
  | .lzcnt_32 => commandWord .lzcnt 2 0 0 0
  | .lzcnt_64 => commandWord .lzcnt 3 0 0 0
  | .idxmsb_32 => commandWord .idxmsb 2 0 0 0
  | .idxmsb_64 => commandWord .idxmsb 3 0 0 0
  | .msb_32 => commandWord .msb 2 0 0 0
  | .msb_64 => commandWord .msb 3 0 0 0
  | .log2_32 => commandWord .log2 2 0 0 0
  | .log2_64 => commandWord .log2 3 0 0 0
  | .brev_32 => commandWord .brev 2 0 0 0
  | .brev_64 => commandWord .brev 3 0 0 0
  | .popcnt_32 => commandWord .popcnt 2 0 0 0
  | .popcnt_64 => commandWord .popcnt 3 0 0 0
  | .bext_32 => commandWord .bext 2 0 0 0
  | .bext_64 => commandWord .bext 3 0 0 0
  | .deintl_32 => commandWord .deintl 2 0 0 0
  | .deintl_64 => commandWord .deintl 3 0 0 0
  | .intl1_32 => commandWord .intl1 2 0 0 0
  | .intl1_64 => commandWord .intl1 3 0 0 0
  | .intl2_32 => commandWord .intl2 2 0 0 0
  | .intl2_64 => commandWord .intl2 3 0 0 0
  | .sel_32 => commandWord .sel 2 0 0 0
  | .sel_64 => commandWord .sel 3 0 0 0
  | .haszb_32 => commandWord .haszb 2 0 0 0
  | .haszb_64 => commandWord .haszb 3 0 0 0
  | .ispow2_32 => commandWord .ispow2 2 0 0 0
  | .ispow2_64 => commandWord .ispow2 3 0 0 0
  | .flp2_32 => commandWord .flp2 2 0 0 0
  | .flp2_64 => commandWord .flp2 3 0 0 0
  | .clp2_32 => commandWord .clp2 2 0 0 0
  | .clp2_64 => commandWord .clp2 3 0 0 0
  | .u32tou24 => commandWord .u32tou24 0 0 0 0
  | .u24tou32 => commandWord .u24tou32 0 0 0 0
  | .fsign_h => commandWord .fsign 1 0 0 0
  | .fsign_f => commandWord .fsign 2 0 0 0
  | .fsign_d => commandWord .fsign 3 0 0 0
  | .fexp_h => commandWord .fexp 1 0 0 0
  | .fexp_f => commandWord .fexp 2 0 0 0
  | .fexp_d => commandWord .fexp 3 0 0 0
  | .fmant_h => commandWord .fmant 1 0 0 0
  | .fmant_f => commandWord .fmant 2 0 0 0
  | .fmant_d => commandWord .fmant 3 0 0 0
  | .fmake_h => commandWord .fmake 1 0 0 0
  | .fmake_f => commandWord .fmake 2 0 0 0
  | .fmake_d => commandWord .fmake 3 0 0 0
  | .fpack fs fe fm => commandWord .fpack 0 fs fe fm
  | .funpack fs fe fm => commandWord .funpack 0 fs fe fm
  | .f32tof16 => commandWord .f32tof16 0 0 0 0
  | .f16tof32 => commandWord .f16tof32 0 0 0 0
  | .u32tof64 => commandWord .u32tof64 0 0 0 0
  | .f64tou32 => commandWord .f64tou32 0 0 0 0

/-! ## The opcode table's own patterns -/

/-- A row of spec/opcode_table.json: a word `w` is of the row when `w & mask = pattern` (R27). -/
structure TableRow where
  pattern : Command
  mask : Command
  deriving DecidableEq, Repr

def TableRow.admits (row : TableRow) (w : Command) : Bool := w &&& row.mask == row.pattern

/-- A row with no free field. -/
def fixedRow (pattern : Command) : TableRow := ⟨pattern, 0xFFFFFFFF⟩

def byteLaneRows : List TableRow := [
  fixedRow 0x001, fixedRow 0x101, fixedRow 0x201, fixedRow 0x301, fixedRow 0x01A, fixedRow 0x01B]

def maskRows : List TableRow := [
  fixedRow 0x202, fixedRow 0x302, fixedRow 0x203, fixedRow 0x303, fixedRow 0x204, fixedRow 0x304,
  fixedRow 0x205, fixedRow 0x305, fixedRow 0x206, fixedRow 0x306, fixedRow 0x20D, fixedRow 0x30D]

def indexCountRows : List TableRow := [
  fixedRow 0x207, fixedRow 0x307, fixedRow 0x208, fixedRow 0x308, fixedRow 0x209, fixedRow 0x309,
  fixedRow 0x20A, fixedRow 0x30A, fixedRow 0x20B, fixedRow 0x30B, fixedRow 0x20C, fixedRow 0x30C,
  fixedRow 0x20E, fixedRow 0x30E, fixedRow 0x20F, fixedRow 0x30F, fixedRow 0x210, fixedRow 0x310]

def extractRows : List TableRow := [
  fixedRow 0x211, fixedRow 0x311, fixedRow 0x212, fixedRow 0x312, fixedRow 0x213, fixedRow 0x313,
  fixedRow 0x214, fixedRow 0x314, fixedRow 0x215, fixedRow 0x315]

def predicateRows : List TableRow := [
  fixedRow 0x216, fixedRow 0x316, fixedRow 0x217, fixedRow 0x317, fixedRow 0x218, fixedRow 0x318,
  fixedRow 0x219, fixedRow 0x319]

def floatFieldRows : List TableRow := [
  fixedRow 0x120, fixedRow 0x220, fixedRow 0x320, fixedRow 0x121, fixedRow 0x221, fixedRow 0x321,
  fixedRow 0x122, fixedRow 0x222, fixedRow 0x322, fixedRow 0x123, fixedRow 0x223, fixedRow 0x323]

def floatConvertRows : List TableRow := [
  ⟨0x024, 0xFFF003FF⟩, ⟨0x025, 0xFFF003FF⟩, fixedRow 0x026, fixedRow 0x027, fixedRow 0x028, fixedRow 0x029]

/-- All 72 rows. -/
def opcodeRows : List TableRow :=
  byteLaneRows ++ maskRows ++ indexCountRows ++ extractRows ++ predicateRows ++ floatFieldRows ++ floatConvertRows

/-! ## The host's way in -/

/-- A word of the opcode table's numbering as a command word. A command has no operand words and no byte order: bit 0
of the table is bit 0 of `CMD` (R21), and every bit above `nbits` is 0. -/
def commandOfTableWord (nbits w : Nat) : Command := BitVec.ofNat 32 (w % 2 ^ nbits)

/-- The instruction the decoder reads from the `nbits`-bit word `w`. -/
def decodeTableWord (nbits w : Nat) : Option Instr :=
  (decode (commandOfTableWord nbits w)).toOption

end Sys2Proof
end

