-- ==== Sys2Proof/Machine/Bits.lean ====
section
/-! DEFINITION. The notation of spec/00_scope.md section 5: `ones`, slices and lanes, values given bit by bit,
zero extension, and the counting functions `pop`, `lo_idx`, `hi_idx`. -/

namespace Sys2Proof.Machine

/-- `ones(n)`: the value with bits `n-1..0` set; `ones 0 = 0`. -/
def ones (n : Nat) : Nat := 2 ^ n - 1

/-- The number whose bits `n-1..0` are `f (n-1) .. f 0`. -/
def natBits (f : Nat → Bool) : Nat → Nat
  | 0 => 0
  | n + 1 => natBits f n + if f n then 2 ^ n else 0

/-- The `n`-bit value `r` with `r[i] = f i`. -/
def bitsOf (n : Nat) (f : Nat → Bool) : BitVec n := BitVec.ofNat n (natBits f n)

/-- `zext_64(v)`. -/
def zext {n : Nat} (v : BitVec n) : Word := v.setWidth 64

/-- A count, an index or a pattern of at most 64 bits on the result port. -/
def word (k : Nat) : Word := BitVec.ofNat 64 k

/-- A Boolean result: `R = 1` for true, `R = 0` for false (spec/30_encoding.md R24). -/
def boolWord (b : Bool) : Word := if b then 1 else 0

/-- `pop(v)`: how many bits of `v` are 1. -/
def pop {n : Nat} (v : BitVec n) : Nat := (List.range n).countP fun i => v.getLsbD i

/-- `lo_idx(v)`, for `v != 0`: the least `i` with `v[i] = 1`. No rule reads it at 0. -/
def loIdx {n : Nat} (v : BitVec n) : Nat := ((List.range n).find? fun i => v.getLsbD i).getD 0

/-- `hi_idx(v) = floor(log2(v))`, for `v != 0`: the greatest `i` with `v[i] = 1`. No rule reads it at 0. -/
def hiIdx (v : Nat) : Nat := Nat.log2 v

/-- Byte lane `k` of a value: bits `8k+7..8k`, lane 0 the least significant (spec/20_memory.md R17). -/
def lane {n : Nat} (v : BitVec n) (k : Nat) : BitVec 8 := v.extractLsb' (8 * k) 8

/-- A port value has no bit set at or above bit `n` (spec/00_scope.md R6). -/
def fits (x : Word) (n : Nat) : Bool := x.toNat < 2 ^ n

end Sys2Proof.Machine
end

