-- ==== Sys2Proof/Machine/State.lean ====
section
/-! DEFINITION. The machine's state, its reset value, and the reasons a step can stop.

The BCU has no architectural state that survives a request (spec/10_state.md R9, R14): no register, program
counter, flag, control register or memory. What State holds is the interface (R8, R10, R11), the accepted request
while it is in flight (R13 a), what the host does next (R12, R84), and the model's own count of free draws (R7). -/

namespace Sys2Proof.Machine

/-- A request (R8): a command word and three operand values. -/
structure Request where
  cmd : Command
  a : Word
  b : Word
  c : Word
  deriving DecidableEq, Repr

/-- A response (R8): a 64-bit result and a 2-bit status. -/
structure Response where
  r : Word
  st : BitVec 2
  deriving DecidableEq, Repr

/-- The three statuses of R73; the code 3 is never produced. -/
inductive Status where
  /-- legal command, operands inside the documented domain -/
  | ok
  /-- legal command, some operand outside the documented domain -/
  | undef
  /-- the command word is not a legal command -/
  | illegal
  deriving DecidableEq, Repr

/-- Why a response has status `UNDEF`: the reason labels of R75. They are for the reader; no port carries them (R73). -/
inductive UndefReason where
  | operandWidth
  | zeroInput
  | notSingleBit
  | notExpandedMask
  | fieldOutOfRange
  | noPowerOfTwoInRange
  | uint24Range
  | notAU32ValuedDouble
  deriving DecidableEq, Repr

/-- What the world outside the unit does to it. -/
inductive HostInput where
  /-- A request is presented and answered before the host does anything else (R12). -/
  | request (q : Request)
  /-- A request is presented and accepted, and its response is still to come when the host acts next: the latency is
  open (spec/70_reset_and_hazards.md R85). -/
  | launch (q : Request)
  /-- The one reset is applied from outside (R84). -/
  | reset
  deriving DecidableEq, Repr

/-- The unit never hangs, traps or stops (spec/00_scope.md R4; R78): there is no fault. -/
inductive Fault where
  deriving DecidableEq, Repr

/-- Why a step could be refused. -/
inductive Refusal where
  /-- An instruction that has no meaning yet, by its mnemonic. Raised by an arm of `exec` alone; safe, since the
  machine stops where the hardware goes on. No arm raises it any more. -/
  | notModelled (mnemonic : String)
  deriving DecidableEq, Repr

/-- The state of the model. Plain data. -/
structure State where
  /-- The environment: what the host does from now on, oldest first (R12: requests are accepted in order). -/
  host : List HostInput
  /-- A request has been accepted and its response has not been given (R13 a). -/
  inFlight : Bool
  /-- Port `CMD`, as sampled when the last request was accepted (R10). -/
  cmd : Command
  /-- Port `A`, as sampled when the last request was accepted (R10). -/
  a : Word
  /-- Port `B`, as sampled when the last request was accepted (R10). -/
  b : Word
  /-- Port `C`, as sampled when the last request was accepted (R10). -/
  c : Word
  /-- `R` and `ST` are a response being given; otherwise their values mean nothing (R15). -/
  responding : Bool
  /-- Port `R` (R11). -/
  r : Word
  /-- Port `ST` (R11, R73). -/
  st : BitVec 2
  /-- The MODEL'S OWN: the number of the next free draw (R7, R63). No port shows it. -/
  draws : Nat
  deriving DecidableEq, Repr

/-- The unit right after reset (R15, R84): idle, nothing in flight, no response being given. The ports then hold
unspecified values; the zeros here are the model's choice (notes/assumptions/1.md). -/
def State.reset : State :=
  { host := [], inFlight := false, cmd := 0, a := 0, b := 0, c := 0,
    responding := false, r := 0, st := 0, draws := 0 }

/-- The values on the two output ports. -/
def State.response (s : State) : Response := ⟨s.r, s.st⟩

/-- What a step of this machine answers. -/
abbrev StepResult := Host.Outcome State Fault Refusal

end Sys2Proof.Machine
end

