-- ==== Sys2Proof/Machine/Operands.lean ====
section
/-! DEFINITION. How an operation reads its operands: the width check of spec/00_scope.md R6, the table of spec/30_encoding.md
R24 (which ports an operation names, at which widths, and how large its result can be), and the float formats (R56). -/

namespace Sys2Proof.Machine

/-- What an operation answers on operands: the exact 64-bit result, or the reason its status is `UNDEF` (R75). -/
abbrev Result := Except UndefReason Word

/-- `check_width(X, n)` and then the `n`-bit operand: out of contract when a bit at or above bit `n` is set (R6). -/
def withOperand (x : Word) (n : Nat) (k : BitVec n → Result) : Result :=
  if fits x n then k (x.setWidth n) else .error .operandWidth

/-! ## Float formats (R25, R56) -/

/-- A format `(S, E, M)`: sign bits, exponent bits, mantissa bits. -/
structure FloatFormat where
  s : Nat
  e : Nat
  m : Nat
  deriving DecidableEq, Repr

def halfFormat : FloatFormat := ⟨1, 5, 10⟩
def floatFormat : FloatFormat := ⟨1, 8, 23⟩
def doubleFormat : FloatFormat := ⟨1, 11, 52⟩

/-- The width of a pattern of the format. -/
def FloatFormat.width (f : FloatFormat) : Nat := f.s + f.e + f.m

/-- `bias(E) = 2^(E-1) - 1` (R25). -/
def bias (e : Nat) : Nat := 2 ^ (e - 1) - 1

/-- The exponent field of a pattern (R56). -/
def expField (e m : Nat) (b : Nat) : Nat := (b >>> m) &&& ones e

/-- The mantissa field of a pattern (R56). -/
def mantField (m : Nat) (b : Nat) : Nat := b &&& ones m

/-- The sign bit of a pattern (R56). -/
def signField (e m : Nat) (b : Nat) : Nat := (b >>> (e + m)) &&& 1

/-- A pattern from its three fields (R56). -/
def fieldsPattern (e m : Nat) (sign exponent mantissa : Nat) : Nat :=
  sign <<< (e + m) ||| exponent <<< m ||| mantissa

/-! ## The operand table of R24 -/

/-- The declared widths of the ports an instruction names, in the order `A`, `B`, `C`: a list of one, two or three
widths. A port past the end of the list is not named. -/
def operandWidths : Instr → List Nat
  | .bswap_8 => [8]
  | .bswap_16 | .intl1_32 | .fsign_h | .fexp_h | .fmant_h | .f16tof32 => [16]
  | .bswap_32 | .clrlsb_32 | .explsb_32 | .lsb_32 | .exphlsb_32 | .expmsb_32 | .idxbit_32 | .idxexp_32 | .tzcnt_32
  | .idxlsb_32 | .lzcnt_32 | .idxmsb_32 | .msb_32 | .log2_32 | .brev_32 | .popcnt_32 | .deintl_32 | .intl1_64
  | .haszb_32 | .ispow2_32 | .flp2_32 | .clp2_32 | .u32tou24 | .fsign_f | .fexp_f | .fmant_f | .fpack _ _ _
  | .f32tof16 | .u32tof64 => [32]
  | .bswap_64 | .clrlsb_64 | .explsb_64 | .lsb_64 | .exphlsb_64 | .expmsb_64 | .idxbit_64 | .idxexp_64 | .tzcnt_64
  | .idxlsb_64 | .lzcnt_64 | .idxmsb_64 | .msb_64 | .log2_64 | .brev_64 | .popcnt_64 | .deintl_64 | .haszb_64
  | .ispow2_64 | .flp2_64 | .clp2_64 | .fsign_d | .fexp_d | .fmant_d | .f64tou32 => [64]
  | .bext_32 => [32, 64, 64]
  | .bext_64 | .sel_64 => [64, 64, 64]
  | .intl2_32 => [16, 16]
  | .intl2_64 => [32, 32]
  | .sel_32 => [32, 32, 32]
  | .u24tou32 => [24]
  | .fmake_h => [1, 5, 10]
  | .fmake_f => [1, 8, 23]
  | .fmake_d => [1, 11, 52]
  | .funpack fs fe fm => [fs, fe, fm]

/-- The largest result of an `OK` response, by the natural widths and ranges of R24's last column. -/
def resultMax : Instr → Nat
  | .bswap_8 | .fexp_f => ones 8
  | .bswap_16 | .deintl_32 | .fmake_h | .f32tof16 => ones 16
  | .bswap_32 | .clrlsb_32 | .explsb_32 | .lsb_32 | .exphlsb_32 | .expmsb_32 | .msb_32 | .brev_32 | .bext_32
  | .deintl_64 | .intl1_32 | .intl2_32 | .sel_32 | .flp2_32 | .clp2_32 | .fmake_f | .funpack _ _ _ | .f16tof32
  | .f64tou32 => ones 32
  | .bswap_64 | .clrlsb_64 | .explsb_64 | .lsb_64 | .exphlsb_64 | .expmsb_64 | .msb_64 | .brev_64 | .bext_64
  | .intl1_64 | .intl2_64 | .sel_64 | .flp2_64 | .clp2_64 | .fmake_d | .u32tof64 => ones 64
  | .idxbit_32 | .idxexp_32 | .tzcnt_32 | .idxlsb_32 | .lzcnt_32 | .idxmsb_32 | .log2_32 => 31
  | .idxbit_64 | .idxexp_64 | .tzcnt_64 | .idxlsb_64 | .lzcnt_64 | .idxmsb_64 | .log2_64 => 63
  | .popcnt_32 => 32
  | .popcnt_64 => 64
  | .haszb_32 | .haszb_64 | .ispow2_32 | .ispow2_64 | .fsign_h | .fsign_f | .fsign_d => 1
  | .u32tou24 | .u24tou32 => ones 24
  | .fexp_h => ones 5
  | .fexp_d => ones 11
  | .fmant_h => ones 10
  | .fmant_f => ones 23
  | .fmant_d => ones 52
  | .fpack fs fe fm => ones (fs + fe + fm)

end Sys2Proof.Machine
end

