-- ==== Sys2Proof/Machine/Flags.lean ====
section
/-! DEFINITION. The status of a response, which is the only flag the unit has: it is not sticky and no operation has a
side effect on any other (spec/10_state.md R14, spec/60_exceptions.md R73). -/

namespace Sys2Proof.Machine

/-- The code of a status on the 2-bit port `ST` (R73). -/
def Status.code : Status → BitVec 2
  | .ok => 0
  | .undef => 1
  | .illegal => 2

/-- The status of what a legal operation answers: `OK` with a result, else `UNDEF` (R75). -/
def statusOf : Result → Status
  | .ok _ => .ok
  | .error _ => .undef

end Sys2Proof.Machine
end

