-- ==== Sys2Proof/Machine/Ops.lean ====
section
/-! DEFINITION. The shared operations of the machine: accepting a request, giving a response, the two fault reports
(`raise Undef`, `raise Illegal`), reset, and the idle step.

The unit takes no exception and returns from none (spec/60_exceptions.md R77, R78): its whole fault mechanism is the status
of a response. `raise` is therefore the one shared operation that stands where another machine has exception entry;
nothing is saved, nothing is vectored, and there is no return operation. -/

namespace Sys2Proof.Machine

/-- Accept a request: the command and the three operands are sampled once and held until the response (spec/10_state.md
R10, R13 a). `rest` is what the host does afterwards. -/
def State.accept (s : State) (q : Request) (rest : List HostInput) : State :=
  { s with host := rest, inFlight := true, cmd := q.cmd, a := q.a, b := q.b, c := q.c, responding := false }

/-- Give the response of the request in flight: `R` and `ST` are written once, the request is discarded (R11, R13 a), and
the draw of this request is used up (R7). -/
def State.respond (s : State) (r : Word) (st : Status) : State :=
  { s with inFlight := false, responding := true, r := r, st := st.code, draws := s.draws + 1 }

/-- `R <- v; ST <- OK`. -/
def State.answerOk (s : State) (v : Word) : State := s.respond v .ok

/-- A fault report: `ST` says which, `R` is this request's draw of `UNDEF_RESULT` (R7), and nothing else changes. -/
def State.raise (s : State) (st : Status) : State := s.respond (Config.undefResult s.draws) st

/-- `raise Undef(reason)`: the reason is on no port (R73, R75). -/
def State.raiseUndef (s : State) (_reason : UndefReason) : State := s.raise .undef

/-- `raise Illegal(reason)`: the reason is on no port (R73, R74). -/
def State.raiseIllegal (s : State) (_reason : IllegalReason) : State := s.raise .illegal

/-- The response of a legal operation. -/
def State.answer (s : State) : Result → State
  | .ok v => s.answerOk v
  | .error reason => s.raiseUndef reason

/-- No response is being given: `R` and `ST` hold unspecified values, a fresh draw of each (R15). -/
def State.quiet (s : State) : State :=
  { s with responding := false, r := Config.idleR s.draws, st := Config.idleSt s.draws, draws := s.draws + 1 }

/-- Reset (spec/70_reset_and_hazards.md R84): the request in flight is dropped, with no response ever given for it, and
the unit is idle. Nothing else exists to be reset. -/
def State.applyReset (s : State) (rest : List HostInput) : State :=
  { s.quiet with host := rest, inFlight := false }

end Sys2Proof.Machine
end

