-- ==== Sys2Proof/Machine/ByteLane.lean ====
section
/-! DEFINITION. BSWAP, U32TOU24, U24TOU32 (spec/40_byte_lane.md R29 to R31). -/

namespace Sys2Proof.Machine

/-- Lane `k` of the result is lane `W/8 - 1 - k` of the operand (R29, spec/20_memory.md R17 a). -/
def byteSwap {n : Nat} (v : BitVec n) : BitVec n :=
  bitsOf n fun i => v.getLsbD (8 * (n / 8 - 1 - i / 8) + i % 8)

def bswapResult (n : Nat) (a : Word) : Result :=
  withOperand a n fun v => .ok (zext (byteSwap v))

def execBswap_8 (s : State) : StepResult := .next (s.answer (bswapResult 8 s.a))
def execBswap_16 (s : State) : StepResult := .next (s.answer (bswapResult 16 s.a))
def execBswap_32 (s : State) : StepResult := .next (s.answer (bswapResult 32 s.a))
def execBswap_64 (s : State) : StepResult := .next (s.answer (bswapResult 64 s.a))

/-- The 24-bit pattern with array element `k` in lane `k` (spec/20_memory.md R17 b). -/
def uint24Pattern (byte0 byte1 byte2 : BitVec 8) : BitVec 24 := byte2 ++ byte1 ++ byte0

/-- The `uint24` view of a 32-bit integer below `2^24` (R30). -/
def u32tou24Result (a : Word) : Result :=
  withOperand a 32 fun v =>
    if v.toNat < 2 ^ 24 then .ok (zext (uint24Pattern (lane v 0) (lane v 1) (lane v 2)))
    else .error .uint24Range

def execU32tou24 (s : State) : StepResult := .next (s.answer (u32tou24Result s.a))

/-- The integer a `uint24` view represents (R31). -/
def u24tou32Result (a : Word) : Result :=
  withOperand a 24 fun p =>
    .ok (word ((lane p 0).toNat + 256 * (lane p 1).toNat + 65536 * (lane p 2).toNat))

def execU24tou32 (s : State) : StepResult := .next (s.answer (u24tou32Result s.a))

end Sys2Proof.Machine
end

