-- ==== Sys2Proof/Machine/Extract.lean ====
section
/-! DEFINITION. BEXT, DEINTL, INTL1, INTL2, SEL (spec/43_extract_interleave_select.md R47 to R51). -/

namespace Sys2Proof.Machine

/-- R47: `offset` and `size` are compared as integers, so nothing wraps; `size = 0` and `size = N` are inside the
contract. -/
def bextResult (n : Nat) (a b c : Word) : Result :=
  withOperand a n fun v =>
    if b.toNat + c.toNat ≤ n then .ok (zext ((v >>> b.toNat) &&& BitVec.ofNat n (ones c.toNat)))
    else .error .fieldOutOfRange

/-- R48: the bits of the even slots. -/
def deinterleave {n : Nat} (v : BitVec n) : BitVec (n / 2) := bitsOf (n / 2) fun i => v.getLsbD (2 * i)

def deintlResult (n : Nat) (a : Word) : Result := withOperand a n fun v => .ok (zext (deinterleave v))

/-- R50: `x` in the even slots, `y` in the odd slots. -/
def interleave (n : Nat) (x y : BitVec (n / 2)) : BitVec n :=
  bitsOf n fun i => if i % 2 = 0 then x.getLsbD (i / 2) else y.getLsbD (i / 2)

/-- R49: the even slots, zeros in the odd slots. -/
def intl1Result (n : Nat) (a : Word) : Result :=
  withOperand a (n / 2) fun v => .ok (zext (interleave n v 0))

def intl2Result (n : Nat) (a b : Word) : Result :=
  withOperand a (n / 2) fun x => withOperand b (n / 2) fun y => .ok (zext (interleave n x y))

/-- R51: `(mask & (a ^ b)) ^ b`. -/
def bitSelect {n : Nat} (mask a b : BitVec n) : BitVec n := (mask &&& (a ^^^ b)) ^^^ b

def selResult (n : Nat) (a b c : Word) : Result :=
  withOperand a n fun mask => withOperand b n fun x => withOperand c n fun y => .ok (zext (bitSelect mask x y))

def execBext_32 (s : State) : StepResult := .next (s.answer (bextResult 32 s.a s.b s.c))
def execBext_64 (s : State) : StepResult := .next (s.answer (bextResult 64 s.a s.b s.c))
def execDeintl_32 (s : State) : StepResult := .next (s.answer (deintlResult 32 s.a))
def execDeintl_64 (s : State) : StepResult := .next (s.answer (deintlResult 64 s.a))
def execIntl1_32 (s : State) : StepResult := .next (s.answer (intl1Result 32 s.a))
def execIntl1_64 (s : State) : StepResult := .next (s.answer (intl1Result 64 s.a))
def execIntl2_32 (s : State) : StepResult := .next (s.answer (intl2Result 32 s.a s.b))
def execIntl2_64 (s : State) : StepResult := .next (s.answer (intl2Result 64 s.a s.b))
def execSel_32 (s : State) : StepResult := .next (s.answer (selResult 32 s.a s.b s.c))
def execSel_64 (s : State) : StepResult := .next (s.answer (selResult 64 s.a s.b s.c))

end Sys2Proof.Machine
end

