-- ==== Sys2Proof/Machine/FloatFields.lean ====
section
/-! DEFINITION. FSIGN, FEXP, FMANT, FMAKE (spec/45_float_fields.md R59 to R62). A float on a port is its bit pattern: to
reinterpret it is to do nothing (R57). -/

namespace Sys2Proof.Machine

/-- R59. -/
def fsignResult (f : FloatFormat) (a : Word) : Result :=
  withOperand a f.width fun b => .ok (word (signField f.e f.m b.toNat))

/-- R60: the stored exponent. -/
def fexpResult (f : FloatFormat) (a : Word) : Result :=
  withOperand a f.width fun b => .ok (word (expField f.e f.m b.toNat))

/-- R61: the stored mantissa. -/
def fmantResult (f : FloatFormat) (a : Word) : Result :=
  withOperand a f.width fun b => .ok (word (mantField f.m b.toNat))

/-- R62: a field operand that does not fit its field is out of contract. -/
def fmakeResult (f : FloatFormat) (a b c : Word) : Result :=
  withOperand a 1 fun sign => withOperand b f.e fun exponent => withOperand c f.m fun mantissa =>
    .ok (word (fieldsPattern f.e f.m sign.toNat exponent.toNat mantissa.toNat))

def execFsignH (s : State) : StepResult := .next (s.answer (fsignResult halfFormat s.a))
def execFsignF (s : State) : StepResult := .next (s.answer (fsignResult floatFormat s.a))
def execFsignD (s : State) : StepResult := .next (s.answer (fsignResult doubleFormat s.a))
def execFexpH (s : State) : StepResult := .next (s.answer (fexpResult halfFormat s.a))
def execFexpF (s : State) : StepResult := .next (s.answer (fexpResult floatFormat s.a))
def execFexpD (s : State) : StepResult := .next (s.answer (fexpResult doubleFormat s.a))
def execFmantH (s : State) : StepResult := .next (s.answer (fmantResult halfFormat s.a))
def execFmantF (s : State) : StepResult := .next (s.answer (fmantResult floatFormat s.a))
def execFmantD (s : State) : StepResult := .next (s.answer (fmantResult doubleFormat s.a))
def execFmakeH (s : State) : StepResult := .next (s.answer (fmakeResult halfFormat s.a s.b s.c))
def execFmakeF (s : State) : StepResult := .next (s.answer (fmakeResult floatFormat s.a s.b s.c))
def execFmakeD (s : State) : StepResult := .next (s.answer (fmakeResult doubleFormat s.a s.b s.c))

end Sys2Proof.Machine
end

