-- ==== Sys2Proof/Machine/FloatConvert.lean ====
section
/-! DEFINITION. FPACK, FUNPACK, F32TOF16, F16TOF32, U32TOF64, F64TOU32 (spec/46_float_convert.md R63 to R70). The conversions
are written in the integer form of R64: magnitudes in units of `2^-149`. -/

namespace Sys2Proof.Machine

/-- The mantissa of a packed NaN (R63): any value in `1 .. ones(M)`, from the free value of draw number `n`. -/
def nanMantissa (n : Nat) (m32 : BitVec 23) (m : Nat) : Nat := 1 + Config.nanPackMant n m32 m % ones m

/-- `x / 2^t` rounded to the nearest integer, a tie as `PACK_TIE` says (R64). -/
def roundShift (tie : PackTie) (x t : Nat) : Nat :=
  match tie with
  | .away => (2 * x + 2 ^ t) >>> (t + 1)
  | .even =>
    let q := x >>> t
    let rem := x % 2 ^ t
    if 2 * rem < 2 ^ t then q else if 2 ^ t < 2 * rem then q + 1 else q + q % 2

/-- The magnitude of the finite Float with these exponent and mantissa fields, in units of `2^-149`: `X` of R64. -/
def floatUnits (e32 m32 : Nat) : Nat := if e32 = 0 then m32 else (2 ^ 23 + m32) <<< (e32 - 1)

/-- `round_to_format` in its integer form (R64), for `2 <= E <= 8` and `M <= 23`: `150 - bias E` is `emin + 149`. -/
def roundToFormat (tie : PackTie) (x e m : Nat) : Nat :=
  if x = 0 then 0
  else
    let h := hiIdx x
    let lowest := 150 - bias e
    let k := roundShift tie x (max h lowest - m)
    let p := if h < lowest then k else ((h + bias e - 149) <<< m) + (k - 2 ^ m)
    min p (ones e <<< m)

/-- The packed pattern of a Float pattern (R65). `nan` is the mantissa a NaN gets. -/
def packPattern (tie : PackTie) (nan s e m : Nat) (b : BitVec 32) : Nat :=
  let e32 := expField 8 23 b.toNat
  let m32 := mantField 23 b.toNat
  let sgn := if s = 1 then signField 8 23 b.toNat <<< (e + m) else 0
  let inf := ones e <<< m
  let p :=
    if e32 = 255 then if m32 = 0 then inf else inf ||| nan
    else roundToFormat tie (floatUnits e32 m32) e m
  sgn ||| p

/-- R65, with the draw that gives a NaN its mantissa. -/
def packResult (draw s e m : Nat) (a : Word) : Result :=
  withOperand a 32 fun b =>
    .ok (word (packPattern Config.packTie (nanMantissa draw (b.setWidth 23) m) s e m b))

/-- The Float pattern of a triple of the format (R66), without its sign. -/
def unpackMagnitude (e m exponent mantissa : Nat) : Nat :=
  if exponent = 0 then
    if mantissa = 0 then 0
    else
      let h := hiIdx mantissa
      if bias e + m < h + 128 then
        (h + 128 - bias e - m) <<< 23 ||| (mantissa - 2 ^ h) <<< (23 - h)
      else mantissa <<< (23 - m)
  else
    let r := mantissa <<< (23 - m)
    if exponent = ones e then r ||| 255 <<< 23 else r ||| (exponent + 127 - bias e) <<< 23

/-- R66. -/
def unpackResult (s e m : Nat) (a b c : Word) : Result :=
  withOperand a s fun sign => withOperand b e fun exponent => withOperand c m fun mantissa =>
    .ok (word (unpackMagnitude e m exponent.toNat mantissa.toNat ||| sign.toNat <<< 31))

/-- `FPACK<s,e,m>`. A format outside the legal range has no command word; its command is illegal (R25, R26). -/
def execFpack (fs fe fm : Nat) (s : State) : StepResult :=
  .next (if formatLegal fs fe fm then s.answer (packResult s.draws fs fe fm s.a) else s.raiseIllegal .formatRange)

/-- `FUNPACK<s,e,m>`. A format outside the legal range has no command word; its command is illegal (R25, R26). -/
def execFunpack (fs fe fm : Nat) (s : State) : StepResult :=
  .next (if formatLegal fs fe fm then s.answer (unpackResult fs fe fm s.a s.b s.c) else s.raiseIllegal .formatRange)

/-- R67: `FPACK<1,5,10>`. -/
def execF32tof16 (s : State) : StepResult := .next (s.answer (packResult s.draws 1 5 10 s.a))

/-- R68: `FUNPACK<1,5,10>` on the fields of a Half. -/
def f16tof32Result (a : Word) : Result :=
  withOperand a 16 fun h =>
    unpackResult 1 5 10 (word (signField 5 10 h.toNat)) (word (expField 5 10 h.toNat)) (word (mantField 10 h.toNat))

def execF16tof32 (s : State) : StepResult := .next (s.answer (f16tof32Result s.a))

/-- The Double whose value is exactly the integer `i` (R69). -/
def u32tof64Pattern (i : Nat) : Nat :=
  if i = 0 then 0 else ((1023 + hiIdx i) <<< 52) ||| (i - 2 ^ hiIdx i) <<< (52 - hiIdx i)

def u32tof64Result (a : Word) : Result := withOperand a 32 fun i => .ok (word (u32tof64Pattern i.toNat))

def execU32tof64 (s : State) : StepResult := .next (s.answer (u32tof64Result s.a))

/-- R70: the integer a Double holds, when it holds one in `0 .. 2^32 - 1`. -/
def f64tou32Result (a : Word) : Result :=
  let s := signField 11 52 a.toNat
  let e := expField 11 52 a.toNat
  let m := mantField 52 a.toNat
  if a = 0 then .ok 0
  else if s = 0 ∧ 1023 ≤ e ∧ e ≤ 1054 ∧ m &&& ones (52 - (e - 1023)) = 0 then
    .ok (word ((2 ^ 52 + m) >>> (52 - (e - 1023))))
  else .error .notAU32ValuedDouble

def execF64tou32 (s : State) : StepResult := .next (s.answer (f64tou32Result s.a))

end Sys2Proof.Machine
end

