-- ==== Sys2Proof/Machine/IndexCount.lean ====
section
/-! DEFINITION. IDXBIT, IDXEXP, TZCNT, IDXLSB, LZCNT, IDXMSB, LOG2, BREV, POPCNT (spec/42_bit_index_count.md R38 to R46).
The documented-undefined inputs give status `UNDEF`, never a width or a zero (R75). -/

namespace Sys2Proof.Machine

/-- R38. -/
def idxbitResult (n : Nat) (a : Word) : Result :=
  withOperand a n fun v => if pop v = 1 then .ok (word (loIdx v)) else .error .notSingleBit

/-- `v` is of the form `ones(k+1)`: the test of R39, `v + 1` modulo `2^N`. -/
def isExpandedMask {n : Nat} (v : BitVec n) : Bool := v ≠ 0 && v &&& (v + 1) == 0

/-- R39. -/
def idxexpResult (n : Nat) (a : Word) : Result :=
  withOperand a n fun v => if isExpandedMask v then .ok (word (hiIdx v.toNat)) else .error .notExpandedMask

/-- R40 and R41: the index of the lowest set bit, which is the number of trailing zeros. -/
def lowestIndexResult (n : Nat) (a : Word) : Result :=
  withOperand a n fun v => if v = 0 then .error .zeroInput else .ok (word (loIdx v))

/-- R42: the zero bits above the highest set bit, within the width. -/
def lzcntResult (n : Nat) (a : Word) : Result :=
  withOperand a n fun v => if v = 0 then .error .zeroInput else .ok (word (n - 1 - hiIdx v.toNat))

/-- R43 and R44: the index of the highest set bit, `floor(log2(v))`. -/
def highestIndexResult (n : Nat) (a : Word) : Result :=
  withOperand a n fun v => if v = 0 then .error .zeroInput else .ok (word (hiIdx v.toNat))

/-- R45. -/
def reverseBits {n : Nat} (v : BitVec n) : BitVec n := bitsOf n fun i => v.getLsbD (n - 1 - i)

def brevResult (n : Nat) (a : Word) : Result := withOperand a n fun v => .ok (zext (reverseBits v))

/-- R46. -/
def popcntResult (n : Nat) (a : Word) : Result := withOperand a n fun v => .ok (word (pop v))

def execIdxbit_32 (s : State) : StepResult := .next (s.answer (idxbitResult 32 s.a))
def execIdxbit_64 (s : State) : StepResult := .next (s.answer (idxbitResult 64 s.a))
def execIdxexp_32 (s : State) : StepResult := .next (s.answer (idxexpResult 32 s.a))
def execIdxexp_64 (s : State) : StepResult := .next (s.answer (idxexpResult 64 s.a))
def execTzcnt_32 (s : State) : StepResult := .next (s.answer (lowestIndexResult 32 s.a))
def execTzcnt_64 (s : State) : StepResult := .next (s.answer (lowestIndexResult 64 s.a))
def execIdxlsb_32 (s : State) : StepResult := .next (s.answer (lowestIndexResult 32 s.a))
def execIdxlsb_64 (s : State) : StepResult := .next (s.answer (lowestIndexResult 64 s.a))
def execLzcnt_32 (s : State) : StepResult := .next (s.answer (lzcntResult 32 s.a))
def execLzcnt_64 (s : State) : StepResult := .next (s.answer (lzcntResult 64 s.a))
def execIdxmsb_32 (s : State) : StepResult := .next (s.answer (highestIndexResult 32 s.a))
def execIdxmsb_64 (s : State) : StepResult := .next (s.answer (highestIndexResult 64 s.a))
def execLog2_32 (s : State) : StepResult := .next (s.answer (highestIndexResult 32 s.a))
def execLog2_64 (s : State) : StepResult := .next (s.answer (highestIndexResult 64 s.a))
def execBrev_32 (s : State) : StepResult := .next (s.answer (brevResult 32 s.a))
def execBrev_64 (s : State) : StepResult := .next (s.answer (brevResult 64 s.a))
def execPopcnt_32 (s : State) : StepResult := .next (s.answer (popcntResult 32 s.a))
def execPopcnt_64 (s : State) : StepResult := .next (s.answer (popcntResult 64 s.a))

end Sys2Proof.Machine
end

