-- ==== Sys2Proof/Machine/Masks.lean ====
section
/-! DEFINITION. CLRLSB, EXPLSB, LSB, EXPHLSB, EXPMSB, MSB (spec/41_lsb_msb_masks.md R32 to R37). All arithmetic is
modulo `2^N` (spec/00_scope.md R5). -/

namespace Sys2Proof.Machine

/-- R32. -/
def clearLsb {n : Nat} (v : BitVec n) : BitVec n := v &&& (v - 1)

/-- R33, under either value of `EXPAND_LSB_UPPER`. -/
def expandLsb (upper : ExpandLsbUpper) {n : Nat} (v : BitVec n) : BitVec n :=
  match upper with
  | .zero => v ^^^ (v - 1)
  | .keep => v ||| (v - 1)

/-- R34. -/
def isolateLsb {n : Nat} (v : BitVec n) : BitVec n := if v = 0 then 0 else 1#n <<< loIdx v

/-- R35. -/
def expandHighLsb {n : Nat} (v : BitVec n) : BitVec n := v ||| (0 - v)

/-- R36. -/
def expandMsb {n : Nat} (v : BitVec n) : BitVec n :=
  if v = 0 then 0 else BitVec.ofNat n (ones (hiIdx v.toNat + 1))

/-- R37, for `v != 0`: also the largest power of two at or below `v` (spec/44_predicates_pow2.md R54). -/
def isolateMsb {n : Nat} (v : BitVec n) : BitVec n := 1#n <<< hiIdx v.toNat

def clrlsbResult (n : Nat) (a : Word) : Result := withOperand a n fun v => .ok (zext (clearLsb v))

def explsbResult (n : Nat) (a : Word) : Result :=
  withOperand a n fun v => .ok (zext (expandLsb Config.expandLsbUpper v))

def lsbResult (n : Nat) (a : Word) : Result := withOperand a n fun v => .ok (zext (isolateLsb v))

def exphlsbResult (n : Nat) (a : Word) : Result := withOperand a n fun v => .ok (zext (expandHighLsb v))

def expmsbResult (n : Nat) (a : Word) : Result := withOperand a n fun v => .ok (zext (expandMsb v))

def msbResult (n : Nat) (a : Word) : Result :=
  withOperand a n fun v => if v = 0 then .error .zeroInput else .ok (zext (isolateMsb v))

def execClrlsb_32 (s : State) : StepResult := .next (s.answer (clrlsbResult 32 s.a))
def execClrlsb_64 (s : State) : StepResult := .next (s.answer (clrlsbResult 64 s.a))
def execExplsb_32 (s : State) : StepResult := .next (s.answer (explsbResult 32 s.a))
def execExplsb_64 (s : State) : StepResult := .next (s.answer (explsbResult 64 s.a))
def execLsb_32 (s : State) : StepResult := .next (s.answer (lsbResult 32 s.a))
def execLsb_64 (s : State) : StepResult := .next (s.answer (lsbResult 64 s.a))
def execExphlsb_32 (s : State) : StepResult := .next (s.answer (exphlsbResult 32 s.a))
def execExphlsb_64 (s : State) : StepResult := .next (s.answer (exphlsbResult 64 s.a))
def execExpmsb_32 (s : State) : StepResult := .next (s.answer (expmsbResult 32 s.a))
def execExpmsb_64 (s : State) : StepResult := .next (s.answer (expmsbResult 64 s.a))
def execMsb_32 (s : State) : StepResult := .next (s.answer (msbResult 32 s.a))
def execMsb_64 (s : State) : StepResult := .next (s.answer (msbResult 64 s.a))

end Sys2Proof.Machine
end

