-- ==== Sys2Proof/Machine/Predicates.lean ====
section
/-! DEFINITION. HASZB, ISPOW2, FLP2, CLP2 (spec/44_predicates_pow2.md R52 to R55). -/

namespace Sys2Proof.Machine

/-- R52, by the lanes. -/
def hasZeroByte {n : Nat} (v : BitVec n) : Bool := (List.range (n / 8)).any fun k => lane v k == 0

def haszbResult (n : Nat) (a : Word) : Result := withOperand a n fun v => .ok (boolWord (hasZeroByte v))

/-- R53: `CLRLSB(v) = 0`, with no test for zero (spec/90_conflicts.md C1). -/
def isPowerOfTwo {n : Nat} (v : BitVec n) : Bool := clearLsb v == 0

def ispow2Result (n : Nat) (a : Word) : Result := withOperand a n fun v => .ok (boolWord (isPowerOfTwo v))

/-- R54. -/
def flp2Result (n : Nat) (a : Word) : Result :=
  withOperand a n fun v => if v = 0 then .error .zeroInput else .ok (zext (isolateMsb v))

/-- R55: `EXPMSB(v - 1) + 1` inside `1 .. 2^(N-1)`. -/
def clp2Result (n : Nat) (a : Word) : Result :=
  withOperand a n fun v =>
    if v = 0 then .error .zeroInput
    else if 2 ^ (n - 1) < v.toNat then .error .noPowerOfTwoInRange
    else .ok (zext (expandMsb (v - 1) + 1))

def execHaszb_32 (s : State) : StepResult := .next (s.answer (haszbResult 32 s.a))
def execHaszb_64 (s : State) : StepResult := .next (s.answer (haszbResult 64 s.a))
def execIspow2_32 (s : State) : StepResult := .next (s.answer (ispow2Result 32 s.a))
def execIspow2_64 (s : State) : StepResult := .next (s.answer (ispow2Result 64 s.a))
def execFlp2_32 (s : State) : StepResult := .next (s.answer (flp2Result 32 s.a))
def execFlp2_64 (s : State) : StepResult := .next (s.answer (flp2Result 64 s.a))
def execClp2_32 (s : State) : StepResult := .next (s.answer (clp2Result 32 s.a))
def execClp2_64 (s : State) : StepResult := .next (s.answer (clp2Result 64 s.a))

end Sys2Proof.Machine
end

