-- ==== Sys2Proof/Machine/Dispatch.lean ====
section
/-! DEFINITION. One arm per instruction, in the order of the opcode table. -/

namespace Sys2Proof.Machine

/-- What an instruction does to the request in flight. -/
def exec (i : Instr) (s : State) : Host.Outcome State Fault Refusal :=
  match i with
  | .bswap_8 => Sys2Proof.Machine.execBswap_8 s
  | .bswap_16 => Sys2Proof.Machine.execBswap_16 s
  | .bswap_32 => Sys2Proof.Machine.execBswap_32 s
  | .bswap_64 => Sys2Proof.Machine.execBswap_64 s
  | .clrlsb_32 => Sys2Proof.Machine.execClrlsb_32 s
  | .clrlsb_64 => Sys2Proof.Machine.execClrlsb_64 s
  | .explsb_32 => Sys2Proof.Machine.execExplsb_32 s
  | .explsb_64 => Sys2Proof.Machine.execExplsb_64 s
  | .lsb_32 => Sys2Proof.Machine.execLsb_32 s
  | .lsb_64 => Sys2Proof.Machine.execLsb_64 s
  | .exphlsb_32 => Sys2Proof.Machine.execExphlsb_32 s
  | .exphlsb_64 => Sys2Proof.Machine.execExphlsb_64 s
  | .expmsb_32 => Sys2Proof.Machine.execExpmsb_32 s
  | .expmsb_64 => Sys2Proof.Machine.execExpmsb_64 s
  | .idxbit_32 => Sys2Proof.Machine.execIdxbit_32 s
  | .idxbit_64 => Sys2Proof.Machine.execIdxbit_64 s
  | .idxexp_32 => Sys2Proof.Machine.execIdxexp_32 s
  | .idxexp_64 => Sys2Proof.Machine.execIdxexp_64 s
  | .tzcnt_32 => Sys2Proof.Machine.execTzcnt_32 s
  | .tzcnt_64 => Sys2Proof.Machine.execTzcnt_64 s
  | .idxlsb_32 => Sys2Proof.Machine.execIdxlsb_32 s
  | .idxlsb_64 => Sys2Proof.Machine.execIdxlsb_64 s
  | .lzcnt_32 => Sys2Proof.Machine.execLzcnt_32 s
  | .lzcnt_64 => Sys2Proof.Machine.execLzcnt_64 s
  | .idxmsb_32 => Sys2Proof.Machine.execIdxmsb_32 s
  | .idxmsb_64 => Sys2Proof.Machine.execIdxmsb_64 s
  | .msb_32 => Sys2Proof.Machine.execMsb_32 s
  | .msb_64 => Sys2Proof.Machine.execMsb_64 s
  | .log2_32 => Sys2Proof.Machine.execLog2_32 s
  | .log2_64 => Sys2Proof.Machine.execLog2_64 s
  | .brev_32 => Sys2Proof.Machine.execBrev_32 s
  | .brev_64 => Sys2Proof.Machine.execBrev_64 s
  | .popcnt_32 => Sys2Proof.Machine.execPopcnt_32 s
  | .popcnt_64 => Sys2Proof.Machine.execPopcnt_64 s
  | .bext_32 => Sys2Proof.Machine.execBext_32 s
  | .bext_64 => Sys2Proof.Machine.execBext_64 s
  | .deintl_32 => Sys2Proof.Machine.execDeintl_32 s
  | .deintl_64 => Sys2Proof.Machine.execDeintl_64 s
  | .intl1_32 => Sys2Proof.Machine.execIntl1_32 s
  | .intl1_64 => Sys2Proof.Machine.execIntl1_64 s
  | .intl2_32 => Sys2Proof.Machine.execIntl2_32 s
  | .intl2_64 => Sys2Proof.Machine.execIntl2_64 s
  | .sel_32 => Sys2Proof.Machine.execSel_32 s
  | .sel_64 => Sys2Proof.Machine.execSel_64 s
  | .haszb_32 => Sys2Proof.Machine.execHaszb_32 s
  | .haszb_64 => Sys2Proof.Machine.execHaszb_64 s
  | .ispow2_32 => Sys2Proof.Machine.execIspow2_32 s
  | .ispow2_64 => Sys2Proof.Machine.execIspow2_64 s
  | .flp2_32 => Sys2Proof.Machine.execFlp2_32 s
  | .flp2_64 => Sys2Proof.Machine.execFlp2_64 s
  | .clp2_32 => Sys2Proof.Machine.execClp2_32 s
  | .clp2_64 => Sys2Proof.Machine.execClp2_64 s
  | .u32tou24 => Sys2Proof.Machine.execU32tou24 s
  | .u24tou32 => Sys2Proof.Machine.execU24tou32 s
  | .fsign_h => Sys2Proof.Machine.execFsignH s
  | .fsign_f => Sys2Proof.Machine.execFsignF s
  | .fsign_d => Sys2Proof.Machine.execFsignD s
  | .fexp_h => Sys2Proof.Machine.execFexpH s
  | .fexp_f => Sys2Proof.Machine.execFexpF s
  | .fexp_d => Sys2Proof.Machine.execFexpD s
  | .fmant_h => Sys2Proof.Machine.execFmantH s
  | .fmant_f => Sys2Proof.Machine.execFmantF s
  | .fmant_d => Sys2Proof.Machine.execFmantD s
  | .fmake_h => Sys2Proof.Machine.execFmakeH s
  | .fmake_f => Sys2Proof.Machine.execFmakeF s
  | .fmake_d => Sys2Proof.Machine.execFmakeD s
  | .fpack fs fe fm => Sys2Proof.Machine.execFpack fs fe fm s
  | .funpack fs fe fm => Sys2Proof.Machine.execFunpack fs fe fm s
  | .f32tof16 => Sys2Proof.Machine.execF32tof16 s
  | .f16tof32 => Sys2Proof.Machine.execF16tof32 s
  | .u32tof64 => Sys2Proof.Machine.execU32tof64 s
  | .f64tou32 => Sys2Proof.Machine.execF64tou32 s

end Sys2Proof.Machine
end

