-- ==== Sys2Proof/Machine/Transaction.lean ====
section
/-! DEFINITION. The transaction: accept one request, produce its one response (spec/10_state.md R12). Step.lean only calls it. -/

namespace Sys2Proof.Machine

/-- Answer the request in flight: the command word is tested first, then the operation runs (spec/60_exceptions.md R76). -/
def serve (s : State) : StepResult :=
  match decode s.cmd with
  | .ok i => exec i s
  | .error reason => .next (s.raiseIllegal reason)

/-- What the unit does next. Reset overrides everything and drops what is in flight (spec/70_reset_and_hazards.md R84).
Otherwise a request in flight is answered; an idle unit accepts the next request the host presents and answers it in the
same step, which no observer can divide (R12), or, when the host says so, is left with it in flight; with no request
presented nothing happens and the ports mean nothing (R15). -/
def transaction (s : State) : StepResult :=
  match s.host with
  | .reset :: rest => .next (s.applyReset rest)
  | .request q :: rest => if s.inFlight then serve s else serve (s.accept q rest)
  | .launch q :: rest => if s.inFlight then serve s else .next (s.accept q rest).quiet
  | [] => if s.inFlight then serve s else .next s.quiet

/-- The host presents one request whose command word is the `nbits`-bit word `w` and whose operands are the values on the
ports, before anything else it does; no other request is in flight (notes/assumptions/12.md). -/
def State.presentTableWord (s : State) (nbits w : Nat) : State :=
  { s with host := .request ⟨commandOfTableWord nbits w, s.a, s.b, s.c⟩ :: s.host, inFlight := false }

end Sys2Proof.Machine
end

