-- ==== Sys2Proof/Machine/Step.lean ====
section
/-! DEFINITION. The step, and the host's way to have one word run. -/

namespace Sys2Proof.Machine

/-- One step of the machine is one transaction (spec/10_state.md R12). -/
def step (s : State) : Host.Outcome State Fault Refusal := transaction s

/-- The very next step accepts and answers a request with this word as its command. -/
def State.withFetchWord (s : State) (nbits w : Nat) : State := s.presentTableWord nbits w

end Sys2Proof.Machine
end

