-- ==== Sys2Proof/Machine/Portable.lean ====
section
/-! DEFINITION. The portable datapath of the BitOps operations (spec/00_scope.md R3): the bit tricks and table lookups the
spec prints beside its rules. No meaning calls this file: which datapath a unit has is the open parameter `IMPL`, and on
defined inputs the two must agree bit for bit (R3). The de Bruijn constants are the informative ones of
spec/93_implementation_defined.md G4. -/

namespace Sys2Proof.Machine

/-- BSWAP at 32 bits by shifts and masks (R29). -/
def portableBswap32 (v : BitVec 32) : BitVec 32 :=
  (v >>> 24) ||| ((v >>> 8) &&& 0x0000FF00) ||| ((v <<< 8) &&& 0x00FF0000) ||| (v <<< 24)

/-- LSB by negation (R34). -/
def portableLsb {n : Nat} (v : BitVec n) : BitVec n := v &&& (0 - v)

/-- One stage of the shift-or cascade of R36. -/
def cascadeStage {n : Nat} (k : Nat) (v : BitVec n) : BitVec n := v ||| (v >>> k)

/-- EXPMSB by the shift-or cascade: 1, 2, 4, 8, 16 and, at 64 bits, 32 (R36). -/
def portableExpmsb {n : Nat} (v : BitVec n) : BitVec n :=
  let w := cascadeStage 16 (cascadeStage 8 (cascadeStage 4 (cascadeStage 2 (cascadeStage 1 v))))
  if n ≤ 32 then w else cascadeStage 32 w

/-- MSB from the expanded mask (R37). -/
def portableMsb {n : Nat} (v : BitVec n) : BitVec n := portableExpmsb v - (portableExpmsb v >>> 1)

/-- Multiply, shift, look up (R38). -/
def deBruijnIndex {n : Nat} (multiplier : BitVec n) (shift : Nat) (table : List Nat) (v : BitVec n) : Nat :=
  table.getD ((v * multiplier) >>> shift).toNat 0

def bitTable32 : List Nat :=
  [0, 1, 28, 2, 29, 14, 24, 3, 30, 22, 20, 15, 25, 17, 4, 8] ++
  [31, 27, 13, 23, 21, 19, 16, 7, 26, 12, 18, 6, 11, 5, 10, 9]

def maskTable32 : List Nat :=
  [0, 9, 1, 10, 13, 21, 2, 29, 11, 14, 16, 18, 22, 25, 3, 30] ++
  [8, 12, 20, 28, 15, 17, 24, 7, 19, 27, 23, 6, 26, 5, 4, 31]

def bitTable64 : List Nat :=
  [0, 1, 2, 53, 3, 7, 54, 27, 4, 38, 41, 8, 34, 55, 48, 28] ++
  [62, 5, 39, 46, 44, 42, 22, 9, 24, 35, 59, 56, 49, 18, 29, 11] ++
  [63, 52, 6, 26, 37, 40, 33, 47, 61, 45, 43, 21, 23, 58, 17, 10] ++
  [51, 25, 36, 32, 60, 20, 57, 16, 50, 31, 19, 15, 30, 14, 13, 12]

def maskTable64 : List Nat :=
  [0, 47, 1, 56, 48, 27, 2, 60, 57, 49, 41, 37, 28, 16, 3, 61] ++
  [54, 58, 35, 52, 50, 42, 21, 44, 38, 32, 29, 23, 17, 11, 4, 62] ++
  [46, 55, 26, 59, 40, 36, 15, 53, 34, 51, 20, 43, 31, 22, 10, 45] ++
  [25, 39, 14, 33, 19, 30, 9, 24, 13, 18, 8, 12, 7, 6, 5, 63]

/-- IDXBIT by lookup, shift `N - log2 N` (R38, spec/90_conflicts.md C2). -/
def portableIdxbit32 (v : BitVec 32) : Nat := deBruijnIndex 0x077CB531 27 bitTable32 v
def portableIdxbit64 (v : BitVec 64) : Nat := deBruijnIndex 0x022FDD63CC95386D 58 bitTable64 v

/-- IDXEXP by lookup (R39). -/
def portableIdxexp32 (v : BitVec 32) : Nat := deBruijnIndex 0x07C4ACDD 27 maskTable32 v
def portableIdxexp64 (v : BitVec 64) : Nat := deBruijnIndex 0x03F79D71B4CB0A89 58 maskTable64 v

/-- POPCNT by Kernighan's loop: how many times CLRLSB can be applied, at most `fuel` times (R46). -/
def portablePopcnt {n : Nat} : Nat → BitVec n → Nat
  | 0, _ => 0
  | fuel + 1, v => if v = 0 then 0 else portablePopcnt fuel (clearLsb v) + 1

/-- SEL as and-or (R51). -/
def portableSel {n : Nat} (mask a b : BitVec n) : BitVec n := (mask &&& a) ||| (~~~mask &&& b)

/-- INTL2 from two INTL1 (R50). -/
def portableIntl2 (n : Nat) (x y : BitVec (n / 2)) : BitVec n := interleave n x 0 ||| (interleave n y 0) <<< 1

/-- The `n`-bit value whose every byte is `byte` (R52: `0x01…01`, `0x80…80`). -/
def everyByte (n : Nat) (byte : BitVec 8) : BitVec n := bitsOf n fun i => byte.getLsbD (i % 8)

/-- HASZB by `(v - 0x01…01) & ~v & 0x80…80` (R52). -/
def portableHaszb {n : Nat} (v : BitVec n) : Bool :=
  (v - everyByte n 0x01) &&& ~~~v &&& everyByte n 0x80 != 0

end Sys2Proof.Machine
end

