-- ==== Sys2Proof/Machine/Script.lean ====
section
/-! DEFINITION. The spelling of a request and the request script of spec/30_encoding.md R28. Both are the host's: a script
carries results from one request to the next, since the unit keeps nothing (spec/10_state.md R9). -/

namespace Sys2Proof.Machine

/-- `<s,e,m>`, decimal (R28). -/
def formatText (fs fe fm : Nat) : String :=
  "<" ++ toString fs ++ "," ++ toString fe ++ "," ++ toString fm ++ ">"

/-- The spelling of an operation with its width or format (R28). -/
def assemblerName : Instr → String
  | .bswap_8 => "BSWAP.8"
  | .bswap_16 => "BSWAP.16"
  | .bswap_32 => "BSWAP.32"
  | .bswap_64 => "BSWAP.64"
  | .clrlsb_32 => "CLRLSB.32"
  | .clrlsb_64 => "CLRLSB.64"
  | .explsb_32 => "EXPLSB.32"
  | .explsb_64 => "EXPLSB.64"
  | .lsb_32 => "LSB.32"
  | .lsb_64 => "LSB.64"
  | .exphlsb_32 => "EXPHLSB.32"
  | .exphlsb_64 => "EXPHLSB.64"
  | .expmsb_32 => "EXPMSB.32"
  | .expmsb_64 => "EXPMSB.64"
  | .idxbit_32 => "IDXBIT.32"
  | .idxbit_64 => "IDXBIT.64"
  | .idxexp_32 => "IDXEXP.32"
  | .idxexp_64 => "IDXEXP.64"
  | .tzcnt_32 => "TZCNT.32"
  | .tzcnt_64 => "TZCNT.64"
  | .idxlsb_32 => "IDXLSB.32"
  | .idxlsb_64 => "IDXLSB.64"
  | .lzcnt_32 => "LZCNT.32"
  | .lzcnt_64 => "LZCNT.64"
  | .idxmsb_32 => "IDXMSB.32"
  | .idxmsb_64 => "IDXMSB.64"
  | .msb_32 => "MSB.32"
  | .msb_64 => "MSB.64"
  | .log2_32 => "LOG2.32"
  | .log2_64 => "LOG2.64"
  | .brev_32 => "BREV.32"
  | .brev_64 => "BREV.64"
  | .popcnt_32 => "POPCNT.32"
  | .popcnt_64 => "POPCNT.64"
  | .bext_32 => "BEXT.32"
  | .bext_64 => "BEXT.64"
  | .deintl_32 => "DEINTL.32"
  | .deintl_64 => "DEINTL.64"
  | .intl1_32 => "INTL1.32"
  | .intl1_64 => "INTL1.64"
  | .intl2_32 => "INTL2.32"
  | .intl2_64 => "INTL2.64"
  | .sel_32 => "SEL.32"
  | .sel_64 => "SEL.64"
  | .haszb_32 => "HASZB.32"
  | .haszb_64 => "HASZB.64"
  | .ispow2_32 => "ISPOW2.32"
  | .ispow2_64 => "ISPOW2.64"
  | .flp2_32 => "FLP2.32"
  | .flp2_64 => "FLP2.64"
  | .clp2_32 => "CLP2.32"
  | .clp2_64 => "CLP2.64"
  | .u32tou24 => "U32TOU24"
  | .u24tou32 => "U24TOU32"
  | .fsign_h => "FSIGN.H"
  | .fsign_f => "FSIGN.F"
  | .fsign_d => "FSIGN.D"
  | .fexp_h => "FEXP.H"
  | .fexp_f => "FEXP.F"
  | .fexp_d => "FEXP.D"
  | .fmant_h => "FMANT.H"
  | .fmant_f => "FMANT.F"
  | .fmant_d => "FMANT.D"
  | .fmake_h => "FMAKE.H"
  | .fmake_f => "FMAKE.F"
  | .fmake_d => "FMAKE.D"
  | .fpack fs fe fm => "FPACK" ++ formatText fs fe fm
  | .funpack fs fe fm => "FUNPACK" ++ formatText fs fe fm
  | .f32tof16 => "F32TOF16"
  | .f16tof32 => "F16TOF32"
  | .u32tof64 => "U32TOF64"
  | .f64tou32 => "F64TOU32"

/-- An operand of a script line: a literal, or the `R` of line `t<k>`, lines counted from 1 (R28). -/
inductive ScriptOperand where
  | literal (v : Word)
  | resultOf (k : Nat)
  deriving DecidableEq, Repr

/-- `t<k> = <request>`: an operation and its operands in the order of ports `A`, `B`, `C` (R28). -/
structure ScriptLine where
  instr : Instr
  operands : List ScriptOperand
  deriving DecidableEq, Repr

/-- The value of an operand, given the results of the lines before; `none` when it names no earlier line. -/
def ScriptOperand.value (results : List Word) : ScriptOperand → Option Word
  | .literal v => some v
  | .resultOf 0 => none
  | .resultOf (k + 1) => results[k]?

/-- The three numbers of `FPACK<s,e,m>` and `FUNPACK<s,e,m>` fit the fields `FS`, `FE`, `FM` of a command word (R21); every
other operation has a command word as it is. A format that fits and is out of range has one too: an illegal one (R26). -/
def formatFits : Instr → Bool
  | .fpack fs fe fm | .funpack fs fe fm => fs < 2 ^ 1 && fe < 2 ^ 4 && fm < 2 ^ 5
  | .bswap_8 | .bswap_16 | .bswap_32 | .bswap_64 | .clrlsb_32 | .clrlsb_64 | .explsb_32 | .explsb_64
  | .lsb_32 | .lsb_64 | .exphlsb_32 | .exphlsb_64 | .expmsb_32 | .expmsb_64 | .idxbit_32 | .idxbit_64
  | .idxexp_32 | .idxexp_64 | .tzcnt_32 | .tzcnt_64 | .idxlsb_32 | .idxlsb_64 | .lzcnt_32 | .lzcnt_64
  | .idxmsb_32 | .idxmsb_64 | .msb_32 | .msb_64 | .log2_32 | .log2_64 | .brev_32 | .brev_64
  | .popcnt_32 | .popcnt_64 | .bext_32 | .bext_64 | .deintl_32 | .deintl_64 | .intl1_32 | .intl1_64
  | .intl2_32 | .intl2_64 | .sel_32 | .sel_64 | .haszb_32 | .haszb_64 | .ispow2_32 | .ispow2_64
  | .flp2_32 | .flp2_64 | .clp2_32 | .clp2_64 | .u32tou24 | .u24tou32 | .fsign_h | .fsign_f
  | .fsign_d | .fexp_h | .fexp_f | .fexp_d | .fmant_h | .fmant_f | .fmant_d | .fmake_h
  | .fmake_f | .fmake_d | .f32tof16 | .f16tof32 | .u32tof64 | .f64tou32 => true

/-- The request of a line; a port the line does not write is sent as 0 (R28). DESIGN CHOICE: R28 gives the numbers of a
format no range, and a line whose numbers do not fit the fields of a command word, such as `<2,4,10>` or `<1,18,10>`, has no
request (notes/assumptions/22.md); nor has a line with an operand that names no earlier line, and operands past the third
go nowhere (notes/assumptions/17.md). -/
def ScriptLine.request (results : List Word) (line : ScriptLine) : Option Request :=
  if formatFits line.instr then
    (line.operands.mapM (ScriptOperand.value results)).map fun vs =>
      ⟨encode line.instr, vs.getD 0 0, vs.getD 1 0, vs.getD 2 0⟩
  else none

/-- The responses of a script sent to the unit in state `s`, after lines that gave `results`. It stops at the first
response whose status is not `OK` (R28), and at a line that has no request (notes/assumptions/17.md, 22.md). DESIGN CHOICE:
R28 names no start state; every line of a script is presented to an idle unit, as the host's only input, so a request in
flight in `s` and what else the host was to do are set aside, unanswered (notes/assumptions/23.md). -/
def runScript (s : State) (results : List Word) : List ScriptLine → List Response
  | [] => []
  | line :: rest =>
    match line.request results with
    | none => []
    | some q =>
      match step { s with host := [.request q], inFlight := false } with
      | .next t =>
        t.response :: if t.st = Status.ok.code then runScript t (results ++ [t.r]) rest else []
      | .fault _ => []
      | .refused _ => []

end Sys2Proof.Machine
end

