-- ==== Sys2Proof/Machine/FloatValue.lean ====
section
/-! DEFINITION. The real number a float pattern stands for (spec/45_float_fields.md R58) and `round_to_format` on exact
rationals (spec/46_float_convert.md R64). No meaning calls this file: the conversions of `FloatConvert` are written in the
integer form, and statements relate the two. -/

namespace Sys2Proof.Machine

/-- What a pattern stands for: an exact rational, an infinity, or no number (R58). A zero keeps its sign in the pattern,
not in its value. -/
inductive FloatValue where
  | finite (v : Rat)
  | infinity (negative : Bool)
  | nan
  deriving DecidableEq, Repr

/-- The magnitude of a finite pattern with these fields (R58: zero and denormal, then normal). -/
def magnitude (e m exponent mantissa : Nat) : Rat :=
  if exponent = 0 then mantissa * 2 ^ (1 - (bias e : Int) - m)
  else (2 ^ m + mantissa) * 2 ^ ((exponent : Int) - bias e - m)

/-- The value of fields of a format with `e` exponent and `m` mantissa bits (R58). -/
def fieldsValue (e m sign exponent mantissa : Nat) : FloatValue :=
  if exponent = ones e then
    if mantissa = 0 then .infinity (sign = 1) else .nan
  else .finite ((-1) ^ sign * magnitude e m exponent mantissa)

/-- The value of a pattern; the sign is taken as 0 when the format has none (R58). -/
def patternValue (f : FloatFormat) (b : Nat) : FloatValue :=
  fieldsValue f.e f.m (if f.s = 0 then 0 else signField f.e f.m b) (expField f.e f.m b) (mantField f.m b)

/-- `a` rounded to the nearest integer, a tie as `PACK_TIE` says (R64). -/
def roundRat (tie : PackTie) (a : Rat) : Int :=
  match tie with
  | .away => (a + 1 / 2).floor
  | .even => if a - a.floor = 1 / 2 then a.floor + a.floor % 2 else (a + 1 / 2).floor

/-- `round_to_format(a, E, M)` as R64 prints it, on an exact non-negative rational. -/
def roundToFormatExact (tie : PackTie) (a : Rat) (e m : Nat) : Int :=
  if a = 0 then 0
  else
    let emin : Int := 1 - bias e
    let ea := Int.log 2 a
    let qe := max ea emin - m
    let k := roundRat tie (a / 2 ^ qe)
    let p := if ea < emin then k else (ea + bias e) * 2 ^ m + (k - 2 ^ m)
    min p (ones e * 2 ^ m : Nat)

end Sys2Proof.Machine
end

