-- ==== Sys2Proof/Safety.lean ====
section
/-! DEFINITION. What counts as a safe run, and the contracts of the operations, in the terms the statements use. -/

namespace Sys2Proof.Machine

/-! ## Runs -/

/-- A response being given carries one of the three statuses: `ST = 3` is never produced (spec/60_exceptions.md R73). -/
def State.statusLegal (s : State) : Bool := !s.responding || s.st != 3

/-- A request is held from acceptance until its response is given and no longer (spec/10_state.md R13 a). -/
def State.heldUntilAnswered (s : State) : Bool := !(s.inFlight && s.responding)

/-- The response the unit gives to request `q` alone, on draw number `draw`: what it answers as the first request after
reset (spec/00_scope.md R1, spec/10_state.md R9). -/
def responseAlone (q : Request) (draw : Nat) : Option Response :=
  match step { State.reset with host := [.request q], draws := draw } with
  | .next t => some t.response
  | .fault _ => none
  | .refused _ => none

/-- A response being given is the response of the request last accepted, served alone on the draw it used: nothing
of an earlier request is in it (R9). -/
def State.ResponseIsOwn (s : State) : Prop :=
  s.responding = true →
    0 < s.draws ∧ responseAlone ⟨s.cmd, s.a, s.b, s.c⟩ (s.draws - 1) = some s.response

/-- The invariant every step keeps. -/
structure State.Inv (s : State) : Prop where
  statusLegal : s.statusLegal = true
  heldUntilAnswered : s.heldUntilAnswered = true
  responseIsOwn : s.ResponseIsOwn

/-- The unit is idle and the host presents request `q` next. -/
def State.Presents (s : State) (q : Request) (rest : List HostInput) : Prop :=
  s.inFlight = false ∧ s.host = .request q :: rest

/-- The host does not apply reset now. -/
def State.noReset (s : State) : Bool := s.host.head? != some .reset

/-- Request `q` packs a NaN: the one `OK` response with a free part in its result (R1, R63). -/
def Request.packsNaN (q : Request) : Bool :=
  match decode q.cmd with
  | .ok (.fpack _ _ _) => expField 8 23 q.a.toNat = 255 && mantField 23 q.a.toNat ≠ 0
  | .ok .f32tof16 => expField 8 23 q.a.toNat = 255 && mantField 23 q.a.toNat ≠ 0
  | _ => false

/-! ## Illegal commands: the five clauses of spec/30_encoding.md R26 on the word as a number -/

/-- Clauses 1 to 5 of R26, by the fields of R21, the reserved codes of R22 and the classes of R23. -/
def IllegalCommand (w : Command) : Prop :=
  let n := w.toNat
  let opc := n % 256
  let wsel := n / 2 ^ 8 % 4
  let fe := n / 2 ^ 11 % 16
  let fm := n / 2 ^ 15 % 32
  let packs := opc = 0x24 ∨ opc = 0x25
  n / 2 ^ 20 ≠ 0
  ∨ (opc = 0 ∨ (0x1C ≤ opc ∧ opc ≤ 0x1F) ∨ 0x2A ≤ opc)
  ∨ ((0x02 ≤ opc ∧ opc ≤ 0x19 ∧ wsel < 2) ∨ (0x20 ≤ opc ∧ opc ≤ 0x23 ∧ wsel = 0)
      ∨ ((opc = 0x1A ∨ opc = 0x1B ∨ (0x24 ≤ opc ∧ opc ≤ 0x29)) ∧ wsel ≠ 0))
  ∨ (¬ packs ∧ n / 2 ^ 10 % 2 ^ 10 ≠ 0)
  ∨ (packs ∧ (fe < 2 ∨ 8 < fe ∨ fm < 1 ∨ 23 < fm))

/-! ## Operands out of contract: the causes of spec/60_exceptions.md R75 -/

/-- A port the instruction names has a bit at or above its declared width. -/
def OperandTooWide (i : Instr) (a b c : Word) : Prop :=
  ∃ p ∈ (operandWidths i).zip [a, b, c], fits p.2 p.1 = false

/-- The Double pattern `a` has sign 0 and its value is an integer in `0 .. 2^32 - 1` (spec/46_float_convert.md R70). -/
def HoldsU32 (a : Word) : Prop :=
  a.getLsbD 63 = false ∧ ∃ k : Nat, k < 2 ^ 32 ∧ patternValue doubleFormat a.toNat = .finite k

/-- The complete list of causes of R75, each with the operations that raise it. -/
def UndefCause (i : Instr) (a b c : Word) : Prop :=
  OperandTooWide i a b c
  ∨ (i ∈ [.tzcnt_32, .tzcnt_64, .idxlsb_32, .idxlsb_64, .lzcnt_32, .lzcnt_64, .idxmsb_32, .idxmsb_64,
          .msb_32, .msb_64, .log2_32, .log2_64, .flp2_32, .flp2_64, .clp2_32, .clp2_64] ∧ a = 0)
  ∨ (i ∈ [.idxbit_32, .idxbit_64] ∧ ¬ ∃ k, a.toNat = 2 ^ k)
  ∨ (i ∈ [.idxexp_32, .idxexp_64] ∧ ¬ ∃ k, a.toNat = ones (k + 1))
  ∨ (i = .bext_32 ∧ 32 < b.toNat + c.toNat) ∨ (i = .bext_64 ∧ 64 < b.toNat + c.toNat)
  ∨ (i = .clp2_32 ∧ 2 ^ 31 < a.toNat) ∨ (i = .clp2_64 ∧ 2 ^ 63 < a.toNat)
  ∨ (i = .u32tou24 ∧ 2 ^ 24 ≤ a.toNat)
  ∨ (i = .f64tou32 ∧ ¬ HoldsU32 a)

/-! ## The contract of a one-operand operation -/

/-- On every `n`-bit operand `v` of the domain, on port `A` with zeros above, the operation answers `OK` with the result the
rule describes; `B`, `C` and everything else in the state are free. -/
def AnswersOn (i : Instr) (n : Nat) (domain : BitVec n → Prop) (result : BitVec n → Word → Prop) : Prop :=
  ∀ (s : State) (v : BitVec n), s.a = zext v → domain v →
    ∃ r, result v r ∧ exec i s = .next (s.answerOk r)

/-- The same for an operation every `n`-bit operand is a defined input of. -/
def AnswersAll (i : Instr) (n : Nat) (result : BitVec n → Word → Prop) : Prop :=
  ∀ (s : State) (v : BitVec n), s.a = zext v → ∃ r, result v r ∧ exec i s = .next (s.answerOk r)

/-- `check_width(A, n)`: a bit of `A` at or above bit `n` makes the response `UNDEF` (spec/00_scope.md R6). -/
def WidthChecked (i : Instr) (n : Nat) : Prop :=
  ∀ s : State, fits s.a n = false → exec i s = .next (s.raise .undef)

/-- An `n`-bit operand outside the domain makes the response `UNDEF` (R75). -/
def UndefOutside (i : Instr) (n : Nat) (domain : BitVec n → Prop) : Prop :=
  ∀ (s : State) (v : BitVec n), s.a = zext v → ¬ domain v → exec i s = .next (s.raise .undef)

/-- The result has these bits below bit `n` and zeros above. -/
def BitsAre (n : Nat) (r : Word) (f : Nat → Prop) : Prop :=
  ∀ j < 64, r.getLsbD j = true ↔ j < n ∧ f j

end Sys2Proof.Machine
end

