-- ==== Sys2Proof/Certificates/Slice0/Obligations.lean ====
section
/-! DEFINITION. The statements about the machine, for the provers. Each docstring says which rule of spec/ it formalises. -/

open Sys2Proof Sys2Proof.Machine

/-- One word of each family, written out from the fields of R21 and from the worked table of spec/30_encoding.md section
7, decodes to the instruction it stands for. -/
def Obligations.CommandWordsOfEveryFamilyDecode : Prop :=
  decode 0b00000000000000000000_0_1_00000001 = .ok .bswap_16
  ∧ decode 0b00000000000000000000_11_00000001 = .ok .bswap_64
  ∧ decode 0b00000000000000000000_10_00000010 = .ok .clrlsb_32
  ∧ decode 0b00000000000000000000_10_00001001 = .ok .tzcnt_32
  ∧ decode 0b00000000000000000000_11_00010001 = .ok .bext_64
  ∧ decode 0b00000000000000000000_11_00011001 = .ok .clp2_64
  ∧ decode 0b00000000000000000000_11_00100001 = .ok .fexp_d
  ∧ decode 0b00000000000000000000_00_00100110 = .ok .f32tof16
  ∧ decode 0b000000000000_00110_0101_0_00_00100100 = .ok (.fpack 0 5 6)
  ∧ decode 0b000000000000_01010_0101_1_00_00100101 = .ok (.funpack 1 5 10)

/-- For every well-formed instruction, of every row and with every legal generic format, decode of encode gives the
instruction back. -/
def Obligations.DecodeOfEncodeIsTheInstruction : Prop :=
  ∀ i : Instr, i.wf = true → decode (encode i) = .ok i

/-- If a command word decodes to an instruction, the instruction is well-formed and its encoding is that word: no bit of
a legal command word is dropped. -/
def Obligations.DecodedInstructionReencodes : Prop :=
  ∀ (w : Command) (i : Instr), decode w = .ok i → i.wf = true ∧ encode i = w

/-- R27. Every word decodes to exactly one instruction or to a reason it is illegal and never both; two different legal
words never give the same instruction; the 72 rows of the opcode table are pairwise disjoint; and a word is legal
exactly when some row admits it and, on the two rows with free fields, the format is in range. -/
def Obligations.DecodingTotalAndUnambiguous : Prop :=
  (∀ w : Command, (∃! i, decode w = .ok i) ∨ ∃ reason, decode w = .error reason)
  ∧ (∀ (w w' : Command) (i : Instr), decode w = .ok i → decode w' = .ok i → w = w')
  ∧ opcodeRows.length = 72
  ∧ opcodeRows.Pairwise (fun row row' => ∀ w, ¬ (row.admits w = true ∧ row'.admits w = true))
  ∧ (∀ w : Command, (∃ i, decode w = .ok i) ↔
      ∃ row ∈ opcodeRows, row.admits w = true
        ∧ (row.mask = 0xFFF003FF → formatLegal (fsOf w) (feOf w) (fmOf w) = true)
        ∧ (row.mask = 0xFFF003FF ∨ row.mask = 0xFFFFFFFF))

/-- R26, R74. A command word is rejected exactly when one of the five clauses holds of it as a number. Then, whatever
the operands, the response is `ILLEGAL` with the free draw on `R`, nothing else changes, and the next request is
accepted and answered as usual. Otherwise the status is not `ILLEGAL`. -/
def Obligations.IllegalCommandsAnswerIllegal : Prop :=
  (∀ w : Command, IllegalCommand w ↔ ∃ reason, decode w = .error reason)
  ∧ (∀ (s : State) (q : Request) (rest : List HostInput), s.Presents q rest → IllegalCommand q.cmd →
      step s = .next ((s.accept q rest).raise .illegal))
  ∧ (∀ (s : State) (q q' : Request) (rest : List HostInput), s.Presents q (.request q' :: rest) → IllegalCommand q.cmd →
      ∃ t, core.run 2 s = .next t ∧ t.host = rest ∧ t.responding = true
        ∧ some t.response = responseAlone q' (s.draws + 1))
  ∧ (∀ (s t : State) (q : Request) (rest : List HostInput), s.Presents q rest → ¬ IllegalCommand q.cmd →
      step s = .next t → t.st ≠ 2)

/-- When the command word in hand decodes to an instruction, the step is exec of it: on the state as it is when a
request is in flight, on the state that has accepted the request when the host presents one to an idle unit, and so
on the state withFetchWord makes. The third clause is the model's choice and no rule of the spec: that withFetchWord
presents one request with the ports' present values as operands and that nothing else is then in flight is
notes/assumptions/12.md (DESIGN CHOICE), and how the table's word is numbered is notes/assumptions/13.md (DEDUCED).
That a request in flight is answered while the host's list waits (first clause) is notes/assumptions/10.md (DESIGN
CHOICE). -/
def Obligations.StepRunsTheDecodedInstruction : Prop :=
  (∀ (s : State) (i : Instr), s.inFlight = true → s.noReset = true → decode s.cmd = .ok i → step s = exec i s)
  ∧ (∀ (s : State) (q : Request) (rest : List HostInput) (i : Instr),
      s.Presents q rest → decode q.cmd = .ok i → step s = exec i (s.accept q rest))
  ∧ (∀ (s : State) (nbits w : Nat) (i : Instr), decodeTableWord nbits w = some i →
      step (s.withFetchWord nbits w)
        = exec i (s.accept ⟨commandOfTableWord nbits w, s.a, s.b, s.c⟩ s.host))

/-- R4, R12, R13, R15. Every step of every state gives a next state: nothing hangs or traps. A request presented to an
idle unit is taken from the host and answered, whatever its command and operands; a request already in flight, with
no reset to come, is answered after finitely many steps, as it was sampled. No other response is given: a step gives
one only when a request is in flight and reset is not applied, or when a request is presented to an idle unit, and
it leaves nothing in flight; a step with nothing in flight and nothing presented gives none and leaves the unit
idle. A response has one of the three statuses. That a response to a request in flight leaves nothing in flight
(third and fourth clauses) rests on the unit having at most one request in flight, which is the model's
(notes/assumptions/11.md, DEDUCED); that a step with nothing presented is one that reads an empty host list (fifth
clause) is the model's representation (notes/assumptions/10.md, DESIGN CHOICE). -/
def Obligations.EveryStepAnswers : Prop :=
  (∀ s : State, ∃ t, step s = .next t)
  ∧ (∀ (s : State) (q : Request) (rest : List HostInput), s.Presents q rest →
      ∃ t, step s = .next t ∧ t.responding = true ∧ t.inFlight = false ∧ t.host = rest ∧ t.st ≠ 3)
  ∧ (∀ s : State, s.inFlight = true → HostInput.reset ∉ s.host →
      ∃ k t, core.run (k + 1) s = .next t ∧ t.responding = true ∧ t.inFlight = false
        ∧ t.cmd = s.cmd ∧ t.a = s.a ∧ t.b = s.b ∧ t.c = s.c ∧ t.st ≠ 3)
  ∧ (∀ s t : State, step s = .next t → t.responding = true →
      t.inFlight = false
      ∧ ((s.inFlight = true ∧ s.noReset = true) ∨ ∃ q rest, s.Presents q rest))
  ∧ (∀ s : State, s.inFlight = false → s.host = [] →
      ∃ t, step s = .next t ∧ t.responding = false ∧ t.inFlight = false ∧ t.host = [])

/-- R1. From any two states the same request presented to an idle unit gets the same status, and the same result when
that status is `OK` and the request does not pack a NaN. When it does, the two results still agree once the draw
number is the same. -/
def Obligations.ResponseDependsOnTheRequestAlone : Prop :=
  ∀ (s s' t t' : State) (q : Request) (rest rest' : List HostInput),
    s.Presents q rest → s'.Presents q rest' → step s = .next t → step s' = .next t' →
      t.st = t'.st
      ∧ (t.st = 0 → q.packsNaN = false → t.r = t'.r)
      ∧ (t.st = 0 → s.draws = s'.draws → t.r = t'.r)

/-- For every list of requests an idle unit is presented with, the k-th step gives the response the k-th request would
have had as the first request after reset, on its own draw: stated for the last of every list, whatever the host
does afterwards, so for each one in turn. -/
def Obligations.RequestsAnsweredInOrderAsIfAlone : Prop :=
  ∀ (qs : List Request) (q : Request) (rest : List HostInput) (s : State),
    s.inFlight = false → s.host = (qs ++ [q]).map .request ++ rest →
      ∃ t, core.run (qs.length + 1) s = .next t ∧ t.host = rest ∧ t.inFlight = false ∧ t.responding = true
        ∧ some t.response = responseAlone q (s.draws + qs.length)

/-- From every state that meets State.Inv, a step leads to a state that meets it: a response being given has one of the
three statuses, never the code 3; a request is not held beside its response; and the response is that of the request
last accepted, served alone. -/
def Obligations.EveryStepKeepsTheInvariant : Prop :=
  ∀ s t : State, s.Inv → step s = .next t → t.Inv

/-- State.reset meets State.Inv. -/
def Obligations.ResetMeetsTheInvariant : Prop :=
  State.reset.Inv

/-- In State.reset no request is in flight and no response is being given (R15, R84). The third clause, that the host
has presented nothing, is the model's choice and follows from no rule (notes/assumptions/12.md, DESIGN CHOICE). The
values on the ports are the model's choice too (notes/assumptions/1.md) and no part of this statement. -/
def Obligations.ResetStateIsIdle : Prop :=
  State.reset.inFlight = false ∧ State.reset.responding = false ∧ State.reset.host = []

/-- R84. When reset is applied, a request in flight is dropped with no response, the unit is idle, and the rest of what
the host does is unchanged; with nothing in flight the same holds. A request presented next is accepted and gets the
response it would have had alone. -/
def Obligations.ResetDropsTheRequestInFlight : Prop :=
  (∀ (s : State) (rest : List HostInput), s.host = .reset :: rest →
    ∃ t, step s = .next t ∧ t.inFlight = false ∧ t.responding = false ∧ t.host = rest)
  ∧ (∀ (s : State) (q : Request) (rest : List HostInput), s.host = .reset :: .request q :: rest →
    ∃ t, core.run 2 s = .next t ∧ t.responding = true ∧ t.host = rest
      ∧ some t.response = responseAlone q (s.draws + 1))

/-- A request accepted whose response is still to come is held as sampled, with no response given meanwhile. The next
step gives the response it would have had alone, whatever the host presents by then, unless reset is applied: then
it is dropped and no response is given. From every state with a request in flight, reset not applied, the next step
answers it and the host's list waits. That the answer comes in the very next step, with the host's list untouched
and nothing else in flight, is the model's choice and no rule of the spec (R85 leaves the latency open):
notes/assumptions/10.md and 9.md (DESIGN CHOICE) and 11.md (DEDUCED). -/
def Obligations.LaunchedRequestHeldUntilAnswered : Prop :=
  (∀ (s : State) (q : Request) (rest : List HostInput), s.inFlight = false → s.host = .launch q :: rest →
    ∃ t, step s = .next t ∧ t.inFlight = true ∧ t.responding = false ∧ t.host = rest
      ∧ t.cmd = q.cmd ∧ t.a = q.a ∧ t.b = q.b ∧ t.c = q.c)
  ∧ (∀ (s : State) (q : Request) (rest : List HostInput), s.inFlight = false → s.host = .launch q :: rest →
    rest.head? ≠ some .reset →
      ∃ t, core.run 2 s = .next t ∧ t.responding = true ∧ t.inFlight = false ∧ t.host = rest
        ∧ some t.response = responseAlone q (s.draws + 1))
  ∧ (∀ (s : State) (q : Request) (rest : List HostInput), s.inFlight = false → s.host = .launch q :: .reset :: rest →
      ∃ t, core.run 2 s = .next t ∧ t.responding = false ∧ t.inFlight = false ∧ t.host = rest)
  ∧ (∀ s : State, s.inFlight = true → s.noReset = true →
      ∃ t, step s = .next t ∧ t.responding = true ∧ t.inFlight = false ∧ t.host = s.host ∧ t.st ≠ 3
        ∧ some t.response = responseAlone ⟨s.cmd, s.a, s.b, s.c⟩ s.draws)

/-- The frame of every instruction: when exec gives a next state, the command and operand ports and the host's inputs
are as before; the request is no longer in flight, a response is being given, and one draw has been used. There is
no memory, register or flag to change. -/
def Obligations.ExecChangesOnlyTheResponse : Prop :=
  ∀ (i : Instr) (s t : State), exec i s = .next t →
    t.host = s.host ∧ t.cmd = s.cmd ∧ t.a = s.a ∧ t.b = s.b ∧ t.c = s.c
    ∧ t.inFlight = false ∧ t.responding = true ∧ t.draws = s.draws + 1

/-- R6, for every well-formed instruction by the operand table of R24. If a port it names has a bit at or above its
declared width, the response is `UNDEF`. Two states that agree on the ports it names and on the draw number get the
same status and, when it is `OK`, the same result, whatever the other ports hold. An `OK` result is at most the
largest value of its natural width, so its upper bits are zero. -/
def Obligations.OperandWidthLaw : Prop :=
  (∀ (i : Instr) (s : State), i.wf = true → OperandTooWide i s.a s.b s.c → exec i s = .next (s.raise .undef))
  ∧ (∀ (i : Instr) (s s' t t' : State), i.wf = true → s.draws = s'.draws →
      [s.a, s.b, s.c].take (operandWidths i).length = [s'.a, s'.b, s'.c].take (operandWidths i).length →
      exec i s = .next t → exec i s' = .next t' → t.st = t'.st ∧ (t.st = 0 → t.r = t'.r))
  ∧ (∀ (i : Instr) (s t : State), i.wf = true → exec i s = .next t → t.st = 0 → t.r.toNat ≤ resultMax i)

/-- R75, R76. The response to a request presented to an idle unit has status 2 exactly when the command word is illegal,
whatever the operands; status 1, with the free draw on `R` and nothing else done, exactly when the command is legal
and one of the causes of R75 holds of the instruction and its operands; and status 0 otherwise. -/
def Obligations.StatusIsByCommandThenOperands : Prop :=
  ∀ (s : State) (q : Request) (rest : List HostInput), s.Presents q rest →
    ∃ t, step s = .next t
      ∧ (t.st = 2 ↔ IllegalCommand q.cmd)
      ∧ (t.st = 1 ↔ ∃ i, decode q.cmd = .ok i ∧ UndefCause i q.a q.b q.c)
      ∧ (t.st = 0 ↔ ∃ i, decode q.cmd = .ok i ∧ ¬ UndefCause i q.a q.b q.c)
      ∧ (t.st = 1 → t = (s.accept q rest).raise .undef)

/-- R28. In the responses of a script every one but the last is `OK`, and there is at most one per line. The response in
place `p` is the one the request of line `p` gets alone, that request made from the results of the responses before
it. Where every operand is a literal or names an earlier line, and every format fits the fields of the command word,
a script that stopped early stopped at a response that is not `OK`. That any other line has no request and ends the
script is the model's choice (notes/assumptions/17.md and 22.md, DESIGN CHOICE): the last two clauses say so for an
operand that names no line, among them 0 and the line itself, and for a format that does not fit. That a script
starts on an idle unit whatever is in flight in the state it is given, and is all the host does, is the model's
choice too (notes/assumptions/23.md, DESIGN CHOICE). -/
def Obligations.ScriptStopsAtFirstResponseNotOk : Prop :=
  (∀ (s : State) (results : List Word) (script : List ScriptLine),
    (runScript s results script).length ≤ script.length
    ∧ ∀ x ∈ (runScript s results script).dropLast, x.st = 0)
  ∧ (∀ (s : State) (results : List Word) (script : List ScriptLine) (p : Nat) (line : ScriptLine) (x : Response),
    script[p]? = some line → (runScript s results script)[p]? = some x →
      ∃ q, line.request (results ++ ((runScript s results script).take p).map Response.r) = some q
        ∧ some x = responseAlone q (s.draws + p))
  ∧ (∀ (s : State) (results : List Word) (script : List ScriptLine),
    (∀ (p : Nat) (line : ScriptLine), script[p]? = some line →
      formatFits line.instr = true
      ∧ ∀ k, ScriptOperand.resultOf k ∈ line.operands → 1 ≤ k ∧ k ≤ results.length + p) →
    (runScript s results script).length < script.length →
      ∃ x, (runScript s results script).getLast? = some x ∧ x.st ≠ 0)
  ∧ (∀ (results : List Word) (line : ScriptLine) (k : Nat), ScriptOperand.resultOf k ∈ line.operands →
      (k = 0 ∨ results.length < k) → line.request results = none)
  ∧ (∀ (s : State) (results : List Word) (line : ScriptLine) (script : List ScriptLine),
      line.request results = none ∨ formatFits line.instr = false → runScript s results (line :: script) = [])

/-- R29. At 8, 16, 32 and 64 bits, for every operand: lane `k` of the result is lane `W/8 - 1 - k` of the operand and
the upper bits are zero; a wider operand is `UNDEF`; and at 32 bits the result is the printed shift-and-mask form.
Swapping twice gives the operand back. -/
def Obligations.BswapReversesByteLanes : Prop :=
  AnswersAll .bswap_8 8 (fun v r => r.toNat < 2 ^ 8 ∧ ∀ k < 8 / 8, lane r k = lane v (8 / 8 - 1 - k))
  ∧ AnswersAll .bswap_16 16 (fun v r => r.toNat < 2 ^ 16 ∧ ∀ k < 16 / 8, lane r k = lane v (16 / 8 - 1 - k))
  ∧ AnswersAll .bswap_32 32 (fun v r => r.toNat < 2 ^ 32 ∧ ∀ k < 32 / 8, lane r k = lane v (32 / 8 - 1 - k))
  ∧ AnswersAll .bswap_64 64 (fun v r => r.toNat < 2 ^ 64 ∧ ∀ k < 64 / 8, lane r k = lane v (64 / 8 - 1 - k))
  ∧ WidthChecked .bswap_8 8
  ∧ WidthChecked .bswap_16 16
  ∧ WidthChecked .bswap_32 32
  ∧ (∀ v : BitVec 32, portableBswap32 v = byteSwap v)
  ∧ (∀ v : BitVec 8, byteSwap v = v) ∧ (∀ v : BitVec 16, byteSwap (byteSwap v) = v)
  ∧ (∀ v : BitVec 32, byteSwap (byteSwap v) = v) ∧ (∀ v : BitVec 64, byteSwap (byteSwap v) = v)

/-- R30, R31. U32TOU24 of a 32-bit `v` below `2^24` gives the pattern with byte `k` of `v` in lane `k`, numerically `v`;
at `2^24` or more, or wider than 32 bits, it is `UNDEF`. U24TOU32 of a 24-bit pattern gives `byte0 + 256 byte1 +
65536 byte2`, numerically the pattern; a wider operand is `UNDEF`. -/
def Obligations.Uint24ConversionsKeepTheByteLanes : Prop :=
  AnswersOn .u32tou24 32 (fun v => v.toNat < 2 ^ 24) (fun v r => r.toNat = v.toNat ∧ ∀ k < 3, lane r k = lane v k)
  ∧ WidthChecked .u32tou24 32
  ∧ UndefOutside .u32tou24 32 (fun v => v.toNat < 2 ^ 24)
  ∧ AnswersAll .u24tou32 24 (fun p r => r.toNat = p.toNat
      ∧ r.toNat = (lane p 0).toNat + 256 * (lane p 1).toNat + 65536 * (lane p 2).toNat)
  ∧ WidthChecked .u24tou32 24

/-- R32. The result is `v & (v - 1)`: bit `j` is set exactly when it was set and some lower bit was; `v = 0` gives 0. A
wider operand is `UNDEF`. -/
def Obligations.ClrlsbClearsTheLowestSetBit : Prop :=
  AnswersAll .clrlsb_32 32 (fun v r => r = zext (v &&& (v - 1)) ∧ BitsAre 32 r (fun j => v.getLsbD j = true ∧ ∃ k < j, v.getLsbD k = true))
  ∧ AnswersAll .clrlsb_64 64 (fun v r => r = zext (v &&& (v - 1)) ∧ BitsAre 64 r (fun j => v.getLsbD j = true ∧ ∃ k < j, v.getLsbD k = true))
  ∧ WidthChecked .clrlsb_32 32

/-- R33 with EXPAND_LSB_UPPER = zero, the spec's choice D11. Bit `j` of the result is set exactly when no bit below `j`
is set in `v`, so `v = 0` gives all ones. Under the alternative `keep` the bits set in `v` stay set too, and the two
readings agree when `v` is 0 or a power of two. A wider operand is `UNDEF`. -/
def Obligations.ExplsbExpandsTheLowestSetBitDownward : Prop :=
  AnswersAll .explsb_32 32 (fun v r => BitsAre 32 r (fun j => ∀ k < j, v.getLsbD k = false))
  ∧ AnswersAll .explsb_64 64 (fun v r => BitsAre 64 r (fun j => ∀ k < j, v.getLsbD k = false))
  ∧ WidthChecked .explsb_32 32
  ∧ (∀ (v : BitVec 32), BitsAre 32 (zext (expandLsb .keep v)) (fun j => v.getLsbD j = true ∨ ∀ k < j, v.getLsbD k = false))
  ∧ (∀ (v : BitVec 64), BitsAre 64 (zext (expandLsb .keep v)) (fun j => v.getLsbD j = true ∨ ∀ k < j, v.getLsbD k = false))
  ∧ (∀ (v : BitVec 32), (v = 0 ∨ ∃ k, v.toNat = 2 ^ k) → expandLsb .keep v = expandLsb .zero v)
  ∧ (∀ (v : BitVec 64), (v = 0 ∨ ∃ k, v.toNat = 2 ^ k) → expandLsb .keep v = expandLsb .zero v)

/-- R34. Bit `j` of the result is set exactly when it is the lowest set bit of `v`; `v = 0` gives 0; equivalently `v &
(0 - v)`. A wider operand is `UNDEF`. -/
def Obligations.LsbIsolatesTheLowestSetBit : Prop :=
  AnswersAll .lsb_32 32 (fun v r => r = zext (portableLsb v)
      ∧ BitsAre 32 r (fun j => v.getLsbD j = true ∧ ∀ k < j, v.getLsbD k = false))
  ∧ AnswersAll .lsb_64 64 (fun v r => r = zext (portableLsb v)
      ∧ BitsAre 64 r (fun j => v.getLsbD j = true ∧ ∀ k < j, v.getLsbD k = false))
  ∧ WidthChecked .lsb_32 32

/-- R35. Bit `j` of the result is set exactly when bit `j` or a lower bit of `v` is; `v = 0` gives 0; the result is `v |
(0 - v)`. A wider operand is `UNDEF`. -/
def Obligations.ExphlsbExpandsTheLowestSetBitUpward : Prop :=
  AnswersAll .exphlsb_32 32 (fun v r => r = zext (v ||| (0 - v)) ∧ BitsAre 32 r (fun j => ∃ k ≤ j, v.getLsbD k = true))
  ∧ AnswersAll .exphlsb_64 64 (fun v r => r = zext (v ||| (0 - v)) ∧ BitsAre 64 r (fun j => ∃ k ≤ j, v.getLsbD k = true))
  ∧ WidthChecked .exphlsb_32 32

/-- R36. Bit `j` of the result is set exactly when bit `j` or a higher bit of `v` is; `v = 0` gives 0. The shift-or
cascade computes the same. A wider operand is `UNDEF`. -/
def Obligations.ExpmsbExpandsTheHighestSetBitDownward : Prop :=
  AnswersAll .expmsb_32 32 (fun v r => r = zext (portableExpmsb v)
      ∧ BitsAre 32 r (fun j => ∃ k, j ≤ k ∧ v.getLsbD k = true))
  ∧ AnswersAll .expmsb_64 64 (fun v r => r = zext (portableExpmsb v)
      ∧ BitsAre 64 r (fun j => ∃ k, j ≤ k ∧ v.getLsbD k = true))
  ∧ WidthChecked .expmsb_32 32

/-- R37. For `v != 0`, bit `j` of the result is set exactly when it is the highest set bit of `v`; equivalently
`EXPMSB(v) - (EXPMSB(v) >> 1)`. `v = 0` and a wider operand are `UNDEF`. -/
def Obligations.MsbIsolatesTheHighestSetBit : Prop :=
  AnswersOn .msb_32 32 (fun v => v ≠ 0) (fun v r => r = zext (portableMsb v)
      ∧ BitsAre 32 r (fun j => v.getLsbD j = true ∧ ∀ k, j < k → v.getLsbD k = false))
  ∧ AnswersOn .msb_64 64 (fun v => v ≠ 0) (fun v r => r = zext (portableMsb v)
      ∧ BitsAre 64 r (fun j => v.getLsbD j = true ∧ ∀ k, j < k → v.getLsbD k = false))
  ∧ WidthChecked .msb_32 32
  ∧ UndefOutside .msb_32 32 (fun v => v ≠ 0)
  ∧ UndefOutside .msb_64 64 (fun v => v ≠ 0)

/-- R38. For an operand with exactly one bit set the result `r` has `v = 2^r`; any other operand, 0 included, and a
wider one are `UNDEF`. -/
def Obligations.IdxbitIndexesTheSingleBit : Prop :=
  AnswersOn .idxbit_32 32 (fun v => ∃ k, v.toNat = 2 ^ k) (fun v r => v.toNat = 2 ^ r.toNat ∧ r.toNat < 32)
  ∧ AnswersOn .idxbit_64 64 (fun v => ∃ k, v.toNat = 2 ^ k) (fun v r => v.toNat = 2 ^ r.toNat ∧ r.toNat < 64)
  ∧ WidthChecked .idxbit_32 32
  ∧ UndefOutside .idxbit_32 32 (fun v => ∃ k, v.toNat = 2 ^ k)
  ∧ UndefOutside .idxbit_64 64 (fun v => ∃ k, v.toNat = 2 ^ k)

/-- R39. For an operand of the form `ones(k+1)` the result is `k`; any other operand, 0 included, and a wider one are
`UNDEF`. -/
def Obligations.IdxexpIndexesTheTopOfAnExpandedMask : Prop :=
  AnswersOn .idxexp_32 32 (fun v => ∃ k, v.toNat = ones (k + 1)) (fun v r => v.toNat = ones (r.toNat + 1) ∧ r.toNat < 32)
  ∧ AnswersOn .idxexp_64 64 (fun v => ∃ k, v.toNat = ones (k + 1)) (fun v r => v.toNat = ones (r.toNat + 1) ∧ r.toNat < 64)
  ∧ WidthChecked .idxexp_32 32
  ∧ UndefOutside .idxexp_32 32 (fun v => ∃ k, v.toNat = ones (k + 1))
  ∧ UndefOutside .idxexp_64 64 (fun v => ∃ k, v.toNat = ones (k + 1))

/-- R40, R41. For `v != 0` the result is the index of a set bit of `v` below which no bit is set. `v = 0` and a wider
operand are `UNDEF`. -/
def Obligations.TzcntAndIdxlsbFindTheLowestSetBit : Prop :=
  AnswersOn .tzcnt_32 32 (fun v => v ≠ 0) (fun v r => r.toNat < 32 ∧ v.getLsbD r.toNat = true ∧ ∀ k < r.toNat, v.getLsbD k = false)
  ∧ AnswersOn .tzcnt_64 64 (fun v => v ≠ 0) (fun v r => r.toNat < 64 ∧ v.getLsbD r.toNat = true ∧ ∀ k < r.toNat, v.getLsbD k = false)
  ∧ WidthChecked .tzcnt_32 32
  ∧ UndefOutside .tzcnt_32 32 (fun v => v ≠ 0)
  ∧ UndefOutside .tzcnt_64 64 (fun v => v ≠ 0)
  ∧ AnswersOn .idxlsb_32 32 (fun v => v ≠ 0) (fun v r => r.toNat < 32 ∧ v.getLsbD r.toNat = true ∧ ∀ k < r.toNat, v.getLsbD k = false)
  ∧ AnswersOn .idxlsb_64 64 (fun v => v ≠ 0) (fun v r => r.toNat < 64 ∧ v.getLsbD r.toNat = true ∧ ∀ k < r.toNat, v.getLsbD k = false)
  ∧ WidthChecked .idxlsb_32 32
  ∧ UndefOutside .idxlsb_32 32 (fun v => v ≠ 0)
  ∧ UndefOutside .idxlsb_64 64 (fun v => v ≠ 0)

/-- R42. For `v != 0` the result `r` is below `N`, bit `N - 1 - r` of `v` is set, and every bit above it is clear. `v =
0` and a wider operand are `UNDEF`. -/
def Obligations.LzcntCountsZerosAboveTheHighestSetBit : Prop :=
  AnswersOn .lzcnt_32 32 (fun v => v ≠ 0) (fun v r => r.toNat < 32 ∧ v.getLsbD (32 - 1 - r.toNat) = true
      ∧ ∀ k, 32 - 1 - r.toNat < k → v.getLsbD k = false)
  ∧ AnswersOn .lzcnt_64 64 (fun v => v ≠ 0) (fun v r => r.toNat < 64 ∧ v.getLsbD (64 - 1 - r.toNat) = true
      ∧ ∀ k, 64 - 1 - r.toNat < k → v.getLsbD k = false)
  ∧ WidthChecked .lzcnt_32 32
  ∧ UndefOutside .lzcnt_32 32 (fun v => v ≠ 0)
  ∧ UndefOutside .lzcnt_64 64 (fun v => v ≠ 0)

/-- R43, R44. For `v != 0` the result `r` is the index of the highest set bit, that is `2^r <= v < 2^(r+1)`. `v = 0` and
a wider operand are `UNDEF`. -/
def Obligations.IdxmsbAndLog2FindTheHighestSetBit : Prop :=
  AnswersOn .idxmsb_32 32 (fun v => v ≠ 0) (fun v r => v.getLsbD r.toNat = true ∧ 2 ^ r.toNat ≤ v.toNat ∧ v.toNat < 2 ^ (r.toNat + 1))
  ∧ AnswersOn .idxmsb_64 64 (fun v => v ≠ 0) (fun v r => v.getLsbD r.toNat = true ∧ 2 ^ r.toNat ≤ v.toNat ∧ v.toNat < 2 ^ (r.toNat + 1))
  ∧ WidthChecked .idxmsb_32 32
  ∧ UndefOutside .idxmsb_32 32 (fun v => v ≠ 0)
  ∧ UndefOutside .idxmsb_64 64 (fun v => v ≠ 0)
  ∧ AnswersOn .log2_32 32 (fun v => v ≠ 0) (fun v r => v.getLsbD r.toNat = true ∧ 2 ^ r.toNat ≤ v.toNat ∧ v.toNat < 2 ^ (r.toNat + 1))
  ∧ AnswersOn .log2_64 64 (fun v => v ≠ 0) (fun v r => v.getLsbD r.toNat = true ∧ 2 ^ r.toNat ≤ v.toNat ∧ v.toNat < 2 ^ (r.toNat + 1))
  ∧ WidthChecked .log2_32 32
  ∧ UndefOutside .log2_32 32 (fun v => v ≠ 0)
  ∧ UndefOutside .log2_64 64 (fun v => v ≠ 0)

/-- R45. Bit `j` of the result is bit `N - 1 - j` of the operand; reversing twice gives the operand back. A wider
operand is `UNDEF`. -/
def Obligations.BrevReversesTheBits : Prop :=
  AnswersAll .brev_32 32 (fun v r => BitsAre 32 r (fun j => v.getLsbD (32 - 1 - j) = true))
  ∧ AnswersAll .brev_64 64 (fun v r => BitsAre 64 r (fun j => v.getLsbD (64 - 1 - j) = true))
  ∧ WidthChecked .brev_32 32
  ∧ (∀ v : BitVec 32, reverseBits (reverseBits v) = v) ∧ (∀ v : BitVec 64, reverseBits (reverseBits v) = v)

/-- R46. The result is the number of set bits, between 0 and `N`: the number of times CLRLSB can be applied before the
value is 0. A wider operand is `UNDEF`. -/
def Obligations.PopcntCountsTheSetBits : Prop :=
  AnswersAll .popcnt_32 32 (fun v r => r.toNat = ((Finset.range 32).filter fun k => v.getLsbD k = true).card
      ∧ r.toNat = portablePopcnt 32 v)
  ∧ AnswersAll .popcnt_64 64 (fun v r => r.toNat = ((Finset.range 64).filter fun k => v.getLsbD k = true).card
      ∧ r.toNat = portablePopcnt 64 v)
  ∧ WidthChecked .popcnt_32 32

/-- R47. When `offset + size <= N` as integers, bit `j` of the result is bit `offset + j` of `v` for `j < size` and 0
above, with `size = 0` and `size = N` inside the contract. When the sum is larger, however large the operands, and
when `v` is wider, the response is `UNDEF`. -/
def Obligations.BextExtractsTheField : Prop :=
  (∀ (s : State) (v : BitVec 32), s.a = zext v → s.b.toNat + s.c.toNat ≤ 32 →
      ∃ r, BitsAre s.c.toNat r (fun j => v.getLsbD (s.b.toNat + j) = true) ∧ exec .bext_32 s = .next (s.answerOk r))
  ∧ (∀ (s : State), 32 < s.b.toNat + s.c.toNat → exec .bext_32 s = .next (s.raise .undef))
  ∧ (∀ (s : State) (v : BitVec 64), s.a = zext v → s.b.toNat + s.c.toNat ≤ 64 →
      ∃ r, BitsAre s.c.toNat r (fun j => v.getLsbD (s.b.toNat + j) = true) ∧ exec .bext_64 s = .next (s.answerOk r))
  ∧ (∀ (s : State), 64 < s.b.toNat + s.c.toNat → exec .bext_64 s = .next (s.raise .undef))
  ∧ WidthChecked .bext_32 32

/-- R48. Bit `j` of the result is bit `2j` of the operand for `j < N/2`, and 0 above. A wider operand is `UNDEF`. -/
def Obligations.DeintlGathersTheEvenSlots : Prop :=
  AnswersAll .deintl_32 32 (fun v r => BitsAre 16 r (fun j => v.getLsbD (2 * j) = true))
  ∧ AnswersAll .deintl_64 64 (fun v r => BitsAre 32 r (fun j => v.getLsbD (2 * j) = true))
  ∧ WidthChecked .deintl_32 32

/-- R49. Bit `2j` of the result is bit `j` of the half-width operand and the odd slots are 0. An operand with a bit at
or above `N/2` is `UNDEF`. DEINTL of the result gives the operand back. -/
def Obligations.Intl1ScattersIntoTheEvenSlots : Prop :=
  AnswersAll .intl1_32 16 (fun v r => BitsAre 32 r (fun j => j % 2 = 0 ∧ v.getLsbD (j / 2) = true))
  ∧ AnswersAll .intl1_64 32 (fun v r => BitsAre 64 r (fun j => j % 2 = 0 ∧ v.getLsbD (j / 2) = true))
  ∧ WidthChecked .intl1_32 16
  ∧ WidthChecked .intl1_64 32
  ∧ (∀ v : BitVec 16, deinterleave (n := 32) (interleave 32 v 0) = v) ∧ (∀ v : BitVec 32, deinterleave (n := 64) (interleave 64 v 0) = v)

/-- R50. Bit `2j` of the result is bit `j` of `x` and bit `2j + 1` is bit `j` of `y`; equivalently `INTL1(x) | (INTL1(y)
<< 1)`. If either operand has a bit at or above `N/2` the response is `UNDEF`. DEINTL of the result gives `x`, and
of the result shifted right by one `y`. -/
def Obligations.Intl2InterleavesTwoHalves : Prop :=
  (∀ (s : State) (x y : BitVec 16), s.a = zext x → s.b = zext y →
      ∃ r, r = zext (portableIntl2 32 x y)
        ∧ BitsAre 32 r (fun j => if j % 2 = 0 then x.getLsbD (j / 2) = true else y.getLsbD (j / 2) = true)
        ∧ exec .intl2_32 s = .next (s.answerOk r))
  ∧ (∀ (s : State) (x y : BitVec 32), s.a = zext x → s.b = zext y →
      ∃ r, r = zext (portableIntl2 64 x y)
        ∧ BitsAre 64 r (fun j => if j % 2 = 0 then x.getLsbD (j / 2) = true else y.getLsbD (j / 2) = true)
        ∧ exec .intl2_64 s = .next (s.answerOk r))
  ∧ (∀ s : State, fits s.a 16 = false ∨ fits s.b 16 = false → exec .intl2_32 s = .next (s.raise .undef))
  ∧ (∀ s : State, fits s.a 32 = false ∨ fits s.b 32 = false → exec .intl2_64 s = .next (s.raise .undef))
  ∧ (∀ x y : BitVec 16, deinterleave (n := 32) (interleave 32 x y) = x
      ∧ deinterleave (n := 32) (interleave 32 x y >>> 1) = y)
  ∧ (∀ x y : BitVec 32, deinterleave (n := 64) (interleave 64 x y) = x
      ∧ deinterleave (n := 64) (interleave 64 x y >>> 1) = y)

/-- R51. Bit `j` of the result is bit `j` of `a` where the mask bit is 1 and of `b` where it is 0, for every mask;
equivalently `(mask & a) | (~mask & b)`. If one of the three operands is wider than 32 bits the 32-bit form is
`UNDEF`. -/
def Obligations.SelSelectsBitByBit : Prop :=
  (∀ (s : State) (mask x y : BitVec 32), s.a = zext mask → s.b = zext x → s.c = zext y →
      ∃ r, r = zext (portableSel mask x y)
        ∧ BitsAre 32 r (fun j => if mask.getLsbD j = true then x.getLsbD j = true else y.getLsbD j = true)
        ∧ exec .sel_32 s = .next (s.answerOk r))
  ∧ (∀ (s : State) (mask x y : BitVec 64), s.a = zext mask → s.b = zext x → s.c = zext y →
      ∃ r, r = zext (portableSel mask x y)
        ∧ BitsAre 64 r (fun j => if mask.getLsbD j = true then x.getLsbD j = true else y.getLsbD j = true)
        ∧ exec .sel_64 s = .next (s.answerOk r))
  ∧ (∀ s : State, fits s.a 32 = false ∨ fits s.b 32 = false ∨ fits s.c 32 = false →
      exec .sel_32 s = .next (s.raise .undef))

/-- R52. The result is 1 when one of the `N/8` byte lanes is zero and 0 otherwise, and so is the Boolean of `(v -
0x01...01) & ~v & 0x80...80 != 0`, on every operand. A wider operand is `UNDEF`. -/
def Obligations.HaszbFindsAZeroLane : Prop :=
  AnswersAll .haszb_32 32 (fun v r => (r = 1 ∧ ∃ k < 32 / 8, lane v k = 0) ∨ (r = 0 ∧ ∀ k < 32 / 8, lane v k ≠ 0))
  ∧ AnswersAll .haszb_64 64 (fun v r => (r = 1 ∧ ∃ k < 64 / 8, lane v k = 0) ∨ (r = 0 ∧ ∀ k < 64 / 8, lane v k ≠ 0))
  ∧ WidthChecked .haszb_32 32
  ∧ (∀ v : BitVec 32, portableHaszb v = true ↔ ∃ k < 32 / 8, lane v k = 0)
  ∧ (∀ v : BitVec 64, portableHaszb v = true ↔ ∃ k < 64 / 8, lane v k = 0)

/-- R53. The result is 1 when `v` is 0 or a power of two, and 0 otherwise. A wider operand is `UNDEF`. -/
def Obligations.Ispow2IsTrueAtZeroAndPowersOfTwo : Prop :=
  AnswersAll .ispow2_32 32 (fun v r => (r = 1 ∧ (v = 0 ∨ ∃ k, v.toNat = 2 ^ k)) ∨ (r = 0 ∧ v ≠ 0 ∧ ∀ k, v.toNat ≠ 2 ^ k))
  ∧ AnswersAll .ispow2_64 64 (fun v r => (r = 1 ∧ (v = 0 ∨ ∃ k, v.toNat = 2 ^ k)) ∨ (r = 0 ∧ v ≠ 0 ∧ ∀ k, v.toNat ≠ 2 ^ k))
  ∧ WidthChecked .ispow2_32 32

/-- R54. For `v != 0` the result is a power of two at or below `v`, and no larger power of two is. `v = 0` and a wider
operand are `UNDEF`. -/
def Obligations.Flp2RoundsDownToAPowerOfTwo : Prop :=
  AnswersOn .flp2_32 32 (fun v => v ≠ 0) (fun v r => (∃ k, r.toNat = 2 ^ k) ∧ r.toNat ≤ v.toNat ∧ ∀ k, 2 ^ k ≤ v.toNat → 2 ^ k ≤ r.toNat)
  ∧ AnswersOn .flp2_64 64 (fun v => v ≠ 0) (fun v r => (∃ k, r.toNat = 2 ^ k) ∧ r.toNat ≤ v.toNat ∧ ∀ k, 2 ^ k ≤ v.toNat → 2 ^ k ≤ r.toNat)
  ∧ WidthChecked .flp2_32 32
  ∧ UndefOutside .flp2_32 32 (fun v => v ≠ 0)
  ∧ UndefOutside .flp2_64 64 (fun v => v ≠ 0)

/-- R55. For `1 <= v <= 2^(N-1)` the result is a power of two at or above `v`, and no smaller power of two is. `v = 0`,
`v > 2^(N-1)` and a wider operand are `UNDEF`. -/
def Obligations.Clp2RoundsUpToAPowerOfTwo : Prop :=
  AnswersOn .clp2_32 32 (fun v => v ≠ 0 ∧ v.toNat ≤ 2 ^ 31)
      (fun v r => (∃ k, r.toNat = 2 ^ k) ∧ v.toNat ≤ r.toNat ∧ ∀ k, v.toNat ≤ 2 ^ k → r.toNat ≤ 2 ^ k)
  ∧ UndefOutside .clp2_32 32 (fun v => v ≠ 0 ∧ v.toNat ≤ 2 ^ 31)
  ∧ AnswersOn .clp2_64 64 (fun v => v ≠ 0 ∧ v.toNat ≤ 2 ^ 63)
      (fun v r => (∃ k, r.toNat = 2 ^ k) ∧ v.toNat ≤ r.toNat ∧ ∀ k, v.toNat ≤ 2 ^ k → r.toNat ≤ 2 ^ k)
  ∧ UndefOutside .clp2_64 64 (fun v => v ≠ 0 ∧ v.toNat ≤ 2 ^ 63)
  ∧ WidthChecked .clp2_32 32

/-- R59 to R61. For every pattern of each of the three formats the results are the sign bit, the stored exponent and the
stored mantissa: the pattern divided by `2^(E+M)`, by `2^M` modulo `2^E`, and modulo `2^M`. A wider operand is
`UNDEF`. -/
def Obligations.FloatFieldsAreSlicesOfThePattern : Prop :=
  AnswersAll .fsign_h 16 (fun b r => r.toNat = b.toNat / 2 ^ 15)
  ∧ AnswersAll .fexp_h 16 (fun b r => r.toNat = b.toNat / 2 ^ 10 % 2 ^ 5)
  ∧ AnswersAll .fmant_h 16 (fun b r => r.toNat = b.toNat % 2 ^ 10)
  ∧ WidthChecked .fsign_h 16
  ∧ WidthChecked .fexp_h 16
  ∧ WidthChecked .fmant_h 16
  ∧ AnswersAll .fsign_f 32 (fun b r => r.toNat = b.toNat / 2 ^ 31)
  ∧ AnswersAll .fexp_f 32 (fun b r => r.toNat = b.toNat / 2 ^ 23 % 2 ^ 8)
  ∧ AnswersAll .fmant_f 32 (fun b r => r.toNat = b.toNat % 2 ^ 23)
  ∧ WidthChecked .fsign_f 32
  ∧ WidthChecked .fexp_f 32
  ∧ WidthChecked .fmant_f 32
  ∧ AnswersAll .fsign_d 64 (fun b r => r.toNat = b.toNat / 2 ^ 63)
  ∧ AnswersAll .fexp_d 64 (fun b r => r.toNat = b.toNat / 2 ^ 52 % 2 ^ 11)
  ∧ AnswersAll .fmant_d 64 (fun b r => r.toNat = b.toNat % 2 ^ 52)

/-- R62. For a triple in range the result is `sign 2^(E+M) + exponent 2^M + mantissa`; if a field does not fit, the
response is `UNDEF`. Taking a pattern of any width apart and putting it together gives it back (R56), and so do the
fields of a pattern put together. -/
def Obligations.FmakeBuildsThePatternOfATriple : Prop :=
  (∀ (s : State) (x : BitVec 1) (y : BitVec 5) (z : BitVec 10), s.a = zext x → s.b = zext y → s.c = zext z →
      ∃ r, r.toNat = x.toNat * 2 ^ 15 + y.toNat * 2 ^ 10 + z.toNat ∧ exec .fmake_h s = .next (s.answerOk r))
  ∧ (∀ s : State, fits s.a 1 = false ∨ fits s.b 5 = false ∨ fits s.c 10 = false →
      exec .fmake_h s = .next (s.raise .undef))
  ∧ (∀ (s : State) (x : BitVec 1) (y : BitVec 8) (z : BitVec 23), s.a = zext x → s.b = zext y → s.c = zext z →
      ∃ r, r.toNat = x.toNat * 2 ^ 31 + y.toNat * 2 ^ 23 + z.toNat ∧ exec .fmake_f s = .next (s.answerOk r))
  ∧ (∀ s : State, fits s.a 1 = false ∨ fits s.b 8 = false ∨ fits s.c 23 = false →
      exec .fmake_f s = .next (s.raise .undef))
  ∧ (∀ (s : State) (x : BitVec 1) (y : BitVec 11) (z : BitVec 52), s.a = zext x → s.b = zext y → s.c = zext z →
      ∃ r, r.toNat = x.toNat * 2 ^ 63 + y.toNat * 2 ^ 52 + z.toNat ∧ exec .fmake_d s = .next (s.answerOk r))
  ∧ (∀ s : State, fits s.a 1 = false ∨ fits s.b 11 = false ∨ fits s.c 52 = false →
      exec .fmake_d s = .next (s.raise .undef))
  ∧ (∀ e m b : Nat, b < 2 ^ (1 + e + m) →
      fieldsPattern e m (signField e m b) (expField e m b) (mantField m b) = b)
  ∧ (∀ e m s x y : Nat, s < 2 → x < 2 ^ e → y < 2 ^ m →
      signField e m (fieldsPattern e m s x y) = s ∧ expField e m (fieldsPattern e m s x y) = x
      ∧ mantField m (fieldsPattern e m s x y) = y)

/-- R63. For every legal format and every Float NaN, in every state and so for every draw, the status is `OK`, the
exponent field of the result is all ones, its mantissa field is not zero, and its sign bit is the Float's when the
format has one and absent otherwise; F32TOF16 likewise at `<1,5,10>`. -/
def Obligations.PackedNaNHasOnesExponentAndNonzeroMantissa : Prop :=
  (∀ (fs fe fm : Nat) (s : State) (v : BitVec 32), formatLegal fs fe fm = true → s.a = zext v →
    v.toNat / 2 ^ 23 % 2 ^ 8 = 255 → v.toNat % 2 ^ 23 ≠ 0 →
      ∃ r, exec (.fpack fs fe fm) s = .next (s.answerOk r) ∧ r.toNat / 2 ^ fm % 2 ^ fe = ones fe
        ∧ r.toNat % 2 ^ fm ≠ 0 ∧ r.toNat / 2 ^ (fe + fm) = fs * (v.toNat / 2 ^ 31))
  ∧ (∀ (s : State) (v : BitVec 32), s.a = zext v → v.toNat / 2 ^ 23 % 2 ^ 8 = 255 → v.toNat % 2 ^ 23 ≠ 0 →
      ∃ r, exec .f32tof16 s = .next (s.answerOk r) ∧ r.toNat / 2 ^ 10 % 2 ^ 5 = 31
        ∧ r.toNat % 2 ^ 10 ≠ 0 ∧ r.toNat / 2 ^ 15 = v.toNat / 2 ^ 31)

/-- R64. For every finite Float, every legal narrow format and either value of PACK_TIE, the integer form the meanings
use gives the pattern that round_to_format, as the rule prints it on the exact rational magnitude, gives: nearest
value, denormals included, the tie as PACK_TIE says, clamped to infinity. -/
def Obligations.RoundingIntegerFormMatchesTheExactRationals : Prop :=
  ∀ (tie : PackTie) (fe fm e32 m32 : Nat), formatLegal 0 fe fm = true → e32 < 255 → m32 < 2 ^ 23 →
    (roundToFormat tie (floatUnits e32 m32) fe fm : Int) = roundToFormatExact tie (magnitude 8 23 e32 m32) fe fm

/-- R65. For every legal format and every Float pattern the status is `OK` and the result is the sign bit, if the format
has one, above the pattern `p` of the magnitude: for a finite Float `p` is its exact magnitude rounded to the format
with ties away from zero (R64), for an infinity it is the narrow infinity, and for a NaN it is a narrow NaN. An
operand wider than 32 bits is `UNDEF`, and a command of this operation whose `E` or `M` is out of range answers
`ILLEGAL`. -/
def Obligations.FpackNarrowsEveryFloat : Prop :=
  (∀ (fs fe fm : Nat) (s : State) (v : BitVec 32), formatLegal fs fe fm = true → s.a = zext v →
    ∃ p : Nat, exec (.fpack fs fe fm) s = .next (s.answerOk (word (fs * (v.toNat / 2 ^ 31) * 2 ^ (fe + fm) + p)))
      ∧ p < 2 ^ (fe + fm)
      ∧ (v.toNat / 2 ^ 23 % 2 ^ 8 ≠ 255 →
          (p : Int) = roundToFormatExact .away (magnitude 8 23 (v.toNat / 2 ^ 23 % 2 ^ 8) (v.toNat % 2 ^ 23)) fe fm)
      ∧ (v.toNat / 2 ^ 23 % 2 ^ 8 = 255 → v.toNat % 2 ^ 23 = 0 → p = ones fe * 2 ^ fm)
      ∧ (v.toNat / 2 ^ 23 % 2 ^ 8 = 255 → v.toNat % 2 ^ 23 ≠ 0 → p / 2 ^ fm = ones fe ∧ p % 2 ^ fm ≠ 0))
  ∧ (∀ (fs fe fm : Nat) (s : State), formatLegal fs fe fm = true → fits s.a 32 = false →
      exec (.fpack fs fe fm) s = .next (s.raise .undef))
  ∧ (∀ (s : State) (q : Request) (rest : List HostInput), s.Presents q rest → opcOf q.cmd = 0x24 →
      feOf q.cmd < 2 ∨ 8 < feOf q.cmd ∨ fmOf q.cmd < 1 ∨ 23 < fmOf q.cmd →
      step s = .next ((s.accept q rest).raise .illegal))

/-- R66. For every legal format and every triple in range the status is `OK`; the result has the triple's sign; when the
triple is no NaN its value as a Float is the triple's value, zeros, denormals and infinities included; when it is
one, the exponent field is 255 and the mantissa is the triple's shifted up by `23 - M`. A field that does not fit (a
sign other than 0 when `S = 0`) is `UNDEF`, and a command of this operation whose `E` or `M` is out of range answers
`ILLEGAL`. -/
def Obligations.FunpackWidensExactly : Prop :=
  (∀ (fs fe fm : Nat) (s : State), formatLegal fs fe fm = true →
    s.a.toNat < 2 ^ fs → s.b.toNat < 2 ^ fe → s.c.toNat < 2 ^ fm →
      ∃ r, exec (.funpack fs fe fm) s = .next (s.answerOk r) ∧ r.toNat < 2 ^ 32 ∧ r.toNat / 2 ^ 31 = s.a.toNat
        ∧ (¬ (s.b.toNat = ones fe ∧ s.c.toNat ≠ 0) →
            patternValue floatFormat r.toNat = fieldsValue fe fm s.a.toNat s.b.toNat s.c.toNat)
        ∧ (s.b.toNat = ones fe → s.c.toNat ≠ 0 →
            r.toNat / 2 ^ 23 % 2 ^ 8 = 255 ∧ r.toNat % 2 ^ 23 = s.c.toNat * 2 ^ (23 - fm)))
  ∧ (∀ (fs fe fm : Nat) (s : State), formatLegal fs fe fm = true →
      2 ^ fs ≤ s.a.toNat ∨ 2 ^ fe ≤ s.b.toNat ∨ 2 ^ fm ≤ s.c.toNat →
      exec (.funpack fs fe fm) s = .next (s.raise .undef))
  ∧ (∀ (s : State) (q : Request) (rest : List HostInput), s.Presents q rest → opcOf q.cmd = 0x25 →
      feOf q.cmd < 2 ∨ 8 < feOf q.cmd ∨ fmOf q.cmd < 1 ∨ 23 < fmOf q.cmd →
      step s = .next ((s.accept q rest).raise .illegal))

/-- R67. F32TOF16 is FPACK at `<1,5,10>` in every state, so on every Float pattern it answers `OK` with that operation's
result, which fits 16 bits; an operand wider than 32 bits is `UNDEF`. -/
def Obligations.F32tof16IsFpackToHalf : Prop :=
  (∀ (s : State) (v : BitVec 32), s.a = zext v →
    ∃ r, r.toNat < 2 ^ 16 ∧ exec .f32tof16 s = .next (s.answerOk r) ∧ exec (.fpack 1 5 10) s = .next (s.answerOk r))
  ∧ WidthChecked .f32tof16 32

/-- R68. For every Half pattern the status is `OK` and the result is what FUNPACK at `<1,5,10>` gives on its three
fields; it has the Half's sign; when the Half is no NaN the result has the Half's value; when it is one the result
is a NaN with the payload shifted up by 13. An operand with a bit above bit 15 is `UNDEF`. -/
def Obligations.F16tof32WidensExactly : Prop :=
  AnswersAll .f16tof32 16 (fun h r => r.toNat < 2 ^ 32 ∧ r.toNat / 2 ^ 31 = h.toNat / 2 ^ 15
      ∧ (¬ (h.toNat / 2 ^ 10 % 2 ^ 5 = 31 ∧ h.toNat % 2 ^ 10 ≠ 0) →
          patternValue floatFormat r.toNat = patternValue halfFormat h.toNat)
      ∧ (h.toNat / 2 ^ 10 % 2 ^ 5 = 31 → h.toNat % 2 ^ 10 ≠ 0 →
          r.toNat / 2 ^ 23 % 2 ^ 8 = 255 ∧ r.toNat % 2 ^ 23 = h.toNat % 2 ^ 10 * 2 ^ 13))
  ∧ (∀ (s t : State) (h : BitVec 16), s.a = zext h →
      t.a = word (h.toNat / 2 ^ 15) → t.b = word (h.toNat / 2 ^ 10 % 2 ^ 5) → t.c = word (h.toNat % 2 ^ 10) →
      ∃ r, exec .f16tof32 s = .next (s.answerOk r) ∧ exec (.funpack 1 5 10) t = .next (t.answerOk r))
  ∧ WidthChecked .f16tof32 16

/-- R69. For every 32-bit integer the result is a Double with sign 0 whose value is exactly the integer; and the pattern
`0x4338000000000000 | i` is the Double of value `2^52 * 1.5 + i`. An operand of `2^32` or more is `UNDEF`. -/
def Obligations.U32tof64IsExact : Prop :=
  AnswersAll .u32tof64 32 (fun i r => r.getLsbD 63 = false ∧ patternValue doubleFormat r.toNat = .finite i.toNat)
  ∧ (∀ i : BitVec 32, patternValue doubleFormat ((0x4338000000000000 : Word) ||| zext i).toNat
      = .finite (2 ^ 52 * 3 / 2 + i.toNat))
  ∧ WidthChecked .u32tof64 32

/-- R70. If the Double has sign 0 and its value is an integer in `0 .. 2^32 - 1`, the status is `OK` and the result is
that integer; every other Double, -0 included, is `UNDEF`. -/
def Obligations.F64tou32IsExactOnIntegerDoubles : Prop :=
  (∀ s : State, HoldsU32 s.a →
    ∃ r, patternValue doubleFormat s.a.toNat = .finite r.toNat ∧ r.toNat < 2 ^ 32 ∧ exec .f64tou32 s = .next (s.answerOk r))
  ∧ (∀ s : State, ¬ HoldsU32 s.a → exec .f64tou32 s = .next (s.raise .undef))

/-- R71 item 1. For every 32-bit integer, zero included, U32TOF64 answers `OK`, and F64TOU32 of its result, in any
state, answers `OK` with the integer. -/
def Obligations.IntegerDoubleRoundTrip : Prop :=
  ∀ (i : BitVec 32) (s t : State), s.a = zext i →
    ∃ r, exec .u32tof64 s = .next (s.answerOk r) ∧ (t.a = r → exec .f64tou32 t = .next (t.answerOk (zext i)))

/-- R71 items 2 and 4. For every legal format and every in-range triple that is no NaN, packing the Float that FUNPACK
gives returns the triple's pattern: by the instructions, and by the packing function under either value of PACK_TIE.
For Half: F32TOF16 of F16TOF32 of every pattern that is no NaN is that pattern. -/
def Obligations.PackOfUnpackIsTheTriple : Prop :=
  (∀ (fs fe fm : Nat) (s t : State), formatLegal fs fe fm = true →
    s.a.toNat < 2 ^ fs → s.b.toNat < 2 ^ fe → s.c.toNat < 2 ^ fm → ¬ (s.b.toNat = ones fe ∧ s.c.toNat ≠ 0) →
      ∃ r, exec (.funpack fs fe fm) s = .next (s.answerOk r)
        ∧ (t.a = r → exec (.fpack fs fe fm) t
            = .next (t.answerOk (word (s.a.toNat * 2 ^ (fe + fm) + s.b.toNat * 2 ^ fm + s.c.toNat))))
        ∧ ∀ (tie : PackTie) (nan : Nat), packPattern tie nan fs fe fm (r.setWidth 32)
            = s.a.toNat * 2 ^ (fe + fm) + s.b.toNat * 2 ^ fm + s.c.toNat)
  ∧ (∀ (h : BitVec 16) (s t : State), s.a = zext h → ¬ (h.toNat / 2 ^ 10 % 2 ^ 5 = 31 ∧ h.toNat % 2 ^ 10 ≠ 0) →
      ∃ r, exec .f16tof32 s = .next (s.answerOk r) ∧ (t.a = r → exec .f32tof16 t = .next (t.answerOk (zext h))))

/-- R71 item 3. If the Float pattern has the sign and the value of some Half pattern that is no NaN, F16TOF32 of
F32TOF16 of it is the Float pattern. -/
def Obligations.UnpackOfPackIsTheFloatWhenExact : Prop :=
  ∀ (f : BitVec 32) (h : BitVec 16) (s t : State), s.a = zext f → patternValue halfFormat h.toNat ≠ .nan →
    patternValue floatFormat f.toNat = patternValue halfFormat h.toNat → f.toNat / 2 ^ 31 = h.toNat / 2 ^ 15 →
      ∃ r, exec .f32tof16 s = .next (s.answerOk r) ∧ (t.a = r → exec .f16tof32 t = .next (t.answerOk (zext f)))

/-- R3 for the lookups, with the informative constants of spec/93_implementation_defined.md G4: on every single bit the
bit lookup gives its index and on every expanded mask the mask lookup gives its top index, at both widths; so the
lookup of the isolated lowest bit is TZCNT's result and that of the expanded mask IDXMSB's, for every operand that
is not zero. -/
def Obligations.DeBruijnLookupsAgreeOnDefinedInputs : Prop :=
  (∀ v : BitVec 32, v ≠ 0 → portableIdxbit32 (portableLsb v) = loIdx v ∧ portableIdxexp32 (portableExpmsb v) = hiIdx v.toNat)
  ∧ (∀ v : BitVec 64, v ≠ 0 → portableIdxbit64 (portableLsb v) = loIdx v ∧ portableIdxexp64 (portableExpmsb v) = hiIdx v.toNat)
  ∧ (∀ k < 32, portableIdxbit32 (BitVec.ofNat 32 (2 ^ k)) = k ∧ portableIdxexp32 (BitVec.ofNat 32 (ones (k + 1))) = k)
  ∧ (∀ k < 64, portableIdxbit64 (BitVec.ofNat 64 (2 ^ k)) = k ∧ portableIdxexp64 (BitVec.ofNat 64 (ones (k + 1))) = k)

/-- R4, R15, R84 item 1. With nothing in flight and nothing presented, after any number of steps no response is being
given, nothing is in flight and the sampled ports are as they were. The same holds any number of steps after a reset
with nothing presented after it, whatever was in flight: no response is ever given for the request it dropped. That
time passes in steps that read an empty host list is the model's representation (notes/assumptions/10.md, DESIGN
CHOICE), and that idle steps and reset leave the sampled ports alone is the model's choice (notes/assumptions/16.md
and 21.md, DESIGN CHOICE). -/
def Obligations.IdleUnitGivesNoResponse : Prop :=
  (∀ (s : State) (k : Nat), s.inFlight = false → s.host = [] →
    ∃ t, core.run (k + 1) s = .next t ∧ t.responding = false ∧ t.inFlight = false ∧ t.host = []
      ∧ t.cmd = s.cmd ∧ t.a = s.a ∧ t.b = s.b ∧ t.c = s.c)
  ∧ (∀ (s : State) (k : Nat), s.host = [.reset] →
    ∃ t, core.run (k + 1) s = .next t ∧ t.responding = false ∧ t.inFlight = false ∧ t.host = []
      ∧ t.cmd = s.cmd ∧ t.a = s.a ∧ t.b = s.b ∧ t.c = s.c)

/-- R84, R9. Take any two states in which the host applies reset and then does the same, whatever is in flight in
either, or nothing, and whatever the ports hold. After the reset step and any number of steps more, both give a
response or neither does, with the same status and, when that is `OK`, the same result; both have a request in
flight or neither; and the same is left of the host's list. So a request reset dropped gets no response, then or
later. The two states are taken at the same draw number (notes/assumptions/2.md), so that two packed NaNs can be
compared. -/
def Obligations.DroppedRequestLeavesNoTrace : Prop :=
  ∀ (s s' : State) (rest : List HostInput) (k : Nat), s.host = .reset :: rest → s'.host = .reset :: rest →
    s.draws = s'.draws →
      ∃ t t', core.run (k + 1) s = .next t ∧ core.run (k + 1) s' = .next t'
        ∧ t.host = t'.host ∧ t.inFlight = t'.inFlight ∧ t.responding = t'.responding
        ∧ (t.responding = true → t.st = t'.st ∧ (t.st = 0 → t.r = t'.r))

/-- The model's choice and no rule of the spec (notes/assumptions/14.md, DEDUCED): no command word decodes to an FPACK
or FUNPACK whose format is outside the range of R25, and exec of such a term, which no step runs, gives the response
R26 clause 5 gives to a command. -/
def Obligations.PackOutsideTheFormatRangeIsIllegal : Prop :=
  (∀ (fs fe fm : Nat) (w : Command), formatLegal fs fe fm = false →
      decode w ≠ .ok (.fpack fs fe fm) ∧ decode w ≠ .ok (.funpack fs fe fm))
  ∧ (∀ (fs fe fm : Nat) (s : State), formatLegal fs fe fm = false →
      exec (.fpack fs fe fm) s = .next (s.raise .illegal) ∧ exec (.funpack fs fe fm) s = .next (s.raise .illegal))
end

