-- ==== Sys2Proof/Laws/Bits.lean ====
section
/-! SUPPORT. What the notation of `Machine.Bits` means: bits of built values, zero extension, width checks, the counting
functions. -/

namespace Sys2Proof.Machine

theorem natBits_lt (f : Nat → Bool) (n : Nat) : natBits f n < 2 ^ n := by
  induction n with
  | zero => simp [natBits]
  | succ n ih => simp only [natBits, Nat.pow_succ]; split <;> omega

theorem testBit_natBits (f : Nat → Bool) (n i : Nat) :
    (natBits f n).testBit i = (decide (i < n) && f i) := by
  induction n with
  | zero => simp [natBits]
  | succ n ih =>
    have hlt := natBits_lt f n
    simp only [natBits, Nat.add_comm (natBits f n)]
    by_cases hf : f n = true
    · rw [if_pos hf]
      rcases Nat.lt_trichotomy i n with h | h | h
      · rw [Nat.testBit_two_pow_add_gt h, ih]; simp [h, Nat.lt_succ_of_lt h]
      · subst h; rw [Nat.testBit_two_pow_add_eq, ih]; simp [hf]
      · have hle : 2 ^ (n + 1) ≤ 2 ^ i := Nat.pow_le_pow_right (by decide) h
        rw [Nat.pow_succ] at hle
        rw [Nat.testBit_lt_two_pow (by omega)]
        simp; omega
    · rw [if_neg hf, Nat.zero_add, ih]
      rcases Nat.lt_trichotomy i n with h | h | h
      · simp [h, Nat.lt_succ_of_lt h]
      · subst h; simp [hf]
      · have h1 : ¬ i < n := by omega
        have h2 : ¬ i < n + 1 := by omega
        simp [h1, h2]

@[simp] theorem getLsbD_bitsOf (n : Nat) (f : Nat → Bool) (i : Nat) :
    (bitsOf n f).getLsbD i = (decide (i < n) && f i) := by
  rw [bitsOf, BitVec.getLsbD_ofNat, testBit_natBits]
  by_cases h : i < n <;> simp [h]

/-! ## Zero extension and width checks -/

@[simp] theorem toNat_zext {n : Nat} (h : n ≤ 64) (v : BitVec n) : (zext v).toNat = v.toNat := by
  simp only [zext, BitVec.toNat_setWidth]
  exact Nat.mod_eq_of_lt (Nat.lt_of_lt_of_le v.isLt (Nat.pow_le_pow_right (by decide) h))

@[simp] theorem getLsbD_zext {n : Nat} (v : BitVec n) (i : Nat) :
    (zext v).getLsbD i = (decide (i < 64) && v.getLsbD i) := by simp [zext]

theorem setWidth_zext {n : Nat} (h : n ≤ 64) (v : BitVec n) : (zext v).setWidth n = v := by
  apply BitVec.eq_of_toNat_eq
  rw [BitVec.toNat_setWidth, toNat_zext h, Nat.mod_eq_of_lt v.isLt]

theorem toNat_word {k : Nat} (h : k < 2 ^ 64) : (word k).toNat = k := by
  rw [word, BitVec.toNat_ofNat, Nat.mod_eq_of_lt h]

theorem fits_iff {x : Word} {n : Nat} : fits x n = true ↔ x.toNat < 2 ^ n := by simp [fits]

theorem fits_zext {n : Nat} (h : n ≤ 64) (v : BitVec n) : fits (zext v) n = true := by
  rw [fits_iff, toNat_zext h]; exact v.isLt

theorem fits_64 (x : Word) : fits x 64 = true := fits_iff.2 x.isLt

/-- A port value that fits is the zero extension of its low bits. -/
theorem zext_setWidth_of_fits {x : Word} {n : Nat} (hn : n ≤ 64) (h : fits x n = true) : zext (x.setWidth n) = x := by
  apply BitVec.eq_of_toNat_eq
  rw [toNat_zext hn, BitVec.toNat_setWidth, Nat.mod_eq_of_lt (fits_iff.1 h)]

@[simp] theorem getLsbD_lane {n : Nat} (v : BitVec n) (k i : Nat) :
    (lane v k).getLsbD i = (decide (i < 8) && v.getLsbD (8 * k + i)) := by
  simp [lane]

/-! ## The counting functions -/

/-- `loIdx` is the least index of a set bit. -/
theorem loIdx_spec {n : Nat} {v : BitVec n} (hv : v ≠ 0) :
    loIdx v < n ∧ v.getLsbD (loIdx v) = true ∧ ∀ k < loIdx v, v.getLsbD k = false := by
  unfold loIdx
  cases h : (List.range n).find? fun i => v.getLsbD i with
  | none =>
    exfalso; apply hv; apply BitVec.eq_of_getLsbD_eq
    intro i hi
    have := List.find?_eq_none.1 h i (List.mem_range.2 hi)
    simpa using this
  | some i =>
    obtain ⟨h1, h2, h3⟩ := List.find?_range_eq_some.1 h
    exact ⟨List.mem_range.1 h2, h1, fun k hk => by simpa using h3 k hk⟩

/-- An index of a set bit with none below is `loIdx`. -/
theorem loIdx_eq {n : Nat} {v : BitVec n} {i : Nat} (hi : v.getLsbD i = true)
    (hlow : ∀ k < i, v.getLsbD k = false) : loIdx v = i := by
  have hv : v ≠ 0 := by rintro rfl; simp at hi
  obtain ⟨-, h2, h3⟩ := loIdx_spec hv
  rcases Nat.lt_trichotomy (loIdx v) i with h | h | h
  · rw [hlow _ h] at h2; cases h2
  · exact h
  · rw [h3 _ h] at hi; cases hi

/-- `hiIdx` brackets the value between powers of two. -/
theorem hiIdx_spec {v : Nat} (hv : v ≠ 0) : 2 ^ hiIdx v ≤ v ∧ v < 2 ^ (hiIdx v + 1) :=
  ⟨Nat.log2_self_le hv, Nat.lt_log2_self⟩

theorem hiIdx_lt {n : Nat} {v : BitVec n} (hv : v ≠ 0) : hiIdx v.toNat < n := by
  have hv' : v.toNat ≠ 0 := fun h => hv (BitVec.eq_of_toNat_eq (by simpa using h))
  exact (Nat.log2_lt hv').2 v.isLt

/-- `hiIdx` is the index of a set bit and no higher bit is set. -/
theorem getLsbD_hiIdx {n : Nat} {v : BitVec n} (hv : v ≠ 0) :
    v.getLsbD (hiIdx v.toNat) = true ∧ ∀ k, hiIdx v.toNat < k → v.getLsbD k = false := by
  have hv' : v.toNat ≠ 0 := fun h => hv (BitVec.eq_of_toNat_eq (by simpa using h))
  refine ⟨Nat.testBit_log2 hv', fun k hk => ?_⟩
  exact Nat.testBit_lt_two_pow (Nat.lt_of_lt_of_le (hiIdx_spec hv').2 (Nat.pow_le_pow_right (by decide) hk))

/-- `pop` counts the set bits. -/
theorem pop_eq_card {n : Nat} (v : BitVec n) :
    pop v = ((Finset.range n).filter fun k => v.getLsbD k = true).card := by
  rw [pop, List.countP_eq_length_filter]
  have : (List.range n).filter (fun k => v.getLsbD k) = (List.range n).filter (fun k => decide (v.getLsbD k = true)) := by
    simp
  rw [this]; rfl

end Sys2Proof.Machine
end

