-- ==== Sys2Proof/Laws/Arithmetic.lean ====
section
/-! SUPPORT. The shared functions of BitOps bit by bit: one lemma each, cited instead of unfolding them. -/

namespace Sys2Proof.Machine

/-- The borrow of `v - 1` reaches bit `j` exactly when no lower bit is set. -/
theorem carry_allOnes {n : Nat} (v : BitVec n) (j : Nat) (hj : j ≤ n) :
    BitVec.carry j v (BitVec.allOnes n) false = decide (∃ k < j, v.getLsbD k = true) := by
  induction j with
  | zero => simp [BitVec.carry, Nat.mod_one]
  | succ j ih =>
    rw [BitVec.carry_succ, ih (by omega)]
    have : (BitVec.allOnes n).getLsbD j = true := by simp; omega
    rw [this]
    cases hv : v.getLsbD j <;>
      simp only [Bool.atLeastTwo, Bool.false_and, Bool.true_and, Bool.false_or, Bool.true_or, Bool.and_true,
        decide_eq_decide, eq_comm (a := true), decide_eq_true_eq]
    · constructor
      · rintro ⟨k, hk, h⟩; exact ⟨k, by omega, h⟩
      · rintro ⟨k, hk, h⟩
        refine ⟨k, ?_, h⟩
        rcases Nat.lt_or_ge k j with h' | h'
        · exact h'
        · have : k = j := by omega
          subst this; rw [hv] at h; cases h
    · exact ⟨j, by omega, hv⟩

theorem getLsbD_sub_one {n : Nat} (v : BitVec n) (j : Nat) (hj : j < n) :
    (v - 1).getLsbD j = (v.getLsbD j ^^ decide (∀ k < j, v.getLsbD k = false)) := by
  have h : v - 1 = v + BitVec.allOnes n := by
    rw [← BitVec.neg_one_eq_allOnes, BitVec.sub_eq_add_neg]; rfl
  rw [h, BitVec.getLsbD_add hj, carry_allOnes v j (by omega)]
  have : (BitVec.allOnes n).getLsbD j = true := by simp [hj]
  rw [this]
  congr 1
  by_cases h : ∃ k < j, v.getLsbD k = true
  · have h' : ¬ ∀ k < j, v.getLsbD k = false := by
      rintro h0; obtain ⟨k, hk, hv⟩ := h; rw [h0 k hk] at hv; cases hv
    simp [h]
  · have h' : ∀ k < j, v.getLsbD k = false := fun k hk => by
      by_contra hc; exact h ⟨k, hk, by simpa using hc⟩
    rw [decide_eq_false h, decide_eq_true h']; rfl

theorem getLsbD_clearLsb {n : Nat} (v : BitVec n) (j : Nat) :
    (clearLsb v).getLsbD j = (v.getLsbD j && decide (∃ k < j, v.getLsbD k = true)) := by
  by_cases hj : j < n
  · rw [clearLsb, BitVec.getLsbD_and, getLsbD_sub_one v j hj]
    have : decide (∃ k < j, v.getLsbD k = true) = !decide (∀ k < j, v.getLsbD k = false) := by
      rw [← decide_not]; simp
    rw [this]
    cases v.getLsbD j <;> simp
  · simp [BitVec.getLsbD_of_ge _ _ (Nat.le_of_not_lt hj)]

theorem getLsbD_expandLsb_zero {n : Nat} (v : BitVec n) (j : Nat) (hj : j < n) :
    (expandLsb .zero v).getLsbD j = decide (∀ k < j, v.getLsbD k = false) := by
  rw [expandLsb, BitVec.getLsbD_xor, getLsbD_sub_one v j hj]
  cases v.getLsbD j <;> simp

theorem getLsbD_expandLsb_keep {n : Nat} (v : BitVec n) (j : Nat) (hj : j < n) :
    (expandLsb .keep v).getLsbD j = (v.getLsbD j || decide (∀ k < j, v.getLsbD k = false)) := by
  rw [expandLsb, BitVec.getLsbD_or, getLsbD_sub_one v j hj]
  cases v.getLsbD j <;> simp

/-- Shifting 1 up by `k` sets bit `k` alone. -/
theorem getLsbD_one_shiftLeft {n : Nat} (k j : Nat) (hk : k < n) : (1#n <<< k).getLsbD j = decide (j = k) := by
  rw [BitVec.getLsbD_shiftLeft, BitVec.getLsbD_one]
  by_cases h : j = k
  · subst h; simp; omega
  · by_cases h' : j < k
    · simp [h', h]
    · have : j - k ≠ 0 := by omega
      simp [this, h]

theorem getLsbD_isolateLsb {n : Nat} (v : BitVec n) (j : Nat) :
    (isolateLsb v).getLsbD j = (v.getLsbD j && decide (∀ k < j, v.getLsbD k = false)) := by
  unfold isolateLsb
  by_cases hv : v = 0
  · simp [hv]
  · obtain ⟨h1, h2, h3⟩ := loIdx_spec hv
    rw [if_neg hv, getLsbD_one_shiftLeft _ _ h1]
    by_cases h : v.getLsbD j = true ∧ ∀ k < j, v.getLsbD k = false
    · rw [loIdx_eq h.1 h.2]; rw [h.1]; simpa using h.2
    · have : j ≠ loIdx v := by rintro rfl; exact h ⟨h2, h3⟩
      rw [decide_eq_false this]
      by_cases hj : v.getLsbD j = true
      · have hk : ¬ ∀ k < j, v.getLsbD k = false := fun hk => h ⟨hj, hk⟩
        rw [decide_eq_false hk, Bool.and_false]
      · simp [hj]

theorem getLsbD_expandHighLsb {n : Nat} (v : BitVec n) (j : Nat) (hj : j < n) :
    (expandHighLsb v).getLsbD j = decide (∃ k ≤ j, v.getLsbD k = true) := by
  rw [expandHighLsb, BitVec.getLsbD_or]
  have : (0 : BitVec n) - v = -v := by simp
  rw [this, BitVec.getLsbD_neg]
  by_cases hvj : v.getLsbD j = true
  · have : ∃ k ≤ j, v.getLsbD k = true := ⟨j, Nat.le_refl _, hvj⟩
    simp [hvj, this]
  · have : (∃ k ≤ j, v.getLsbD k = true) ↔ ∃ k < j, v.getLsbD k = true := by
      constructor
      · rintro ⟨k, hk, h⟩
        refine ⟨k, Nat.lt_of_le_of_ne hk ?_, h⟩
        rintro rfl; exact hvj h
      · rintro ⟨k, hk, h⟩; exact ⟨k, Nat.le_of_lt hk, h⟩
    rw [Bool.not_eq_true] at hvj
    rw [hvj, decide_eq_true hj, Bool.true_and, Bool.false_xor, Bool.false_or]
    exact decide_eq_decide.2 this.symm

theorem getLsbD_expandMsb {n : Nat} (v : BitVec n) (j : Nat) :
    (expandMsb v).getLsbD j = true ↔ ∃ k, j ≤ k ∧ v.getLsbD k = true := by
  unfold expandMsb
  by_cases hv : v = 0
  · simp [hv]
  · obtain ⟨h1, h2⟩ := getLsbD_hiIdx hv
    have hlt := hiIdx_lt hv
    rw [if_neg hv, BitVec.getLsbD_ofNat, ones, Nat.testBit_two_pow_sub_one]
    constructor
    · intro h
      simp only [Bool.and_eq_true, decide_eq_true_eq] at h
      exact ⟨_, by omega, h1⟩
    · rintro ⟨k, hk, h⟩
      have : k ≤ hiIdx v.toNat := by
        by_contra hc; rw [h2 k (by omega)] at h; cases h
      simp only [Bool.and_eq_true, decide_eq_true_eq]
      omega

theorem getLsbD_isolateMsb {n : Nat} {v : BitVec n} (hv : v ≠ 0) (j : Nat) :
    (isolateMsb v).getLsbD j = decide (j = hiIdx v.toNat) :=
  getLsbD_one_shiftLeft _ _ (hiIdx_lt hv)

theorem toNat_isolateMsb {n : Nat} {v : BitVec n} (hv : v ≠ 0) : (isolateMsb v).toNat = 2 ^ hiIdx v.toNat := by
  have := hiIdx_lt hv
  rw [isolateMsb, BitVec.toNat_shiftLeft, BitVec.toNat_ofNat, Nat.shiftLeft_eq,
    Nat.mod_eq_of_lt (a := 1) (Nat.one_lt_two_pow (by omega)), Nat.one_mul]
  exact Nat.mod_eq_of_lt (Nat.pow_lt_pow_right (by decide) this)

theorem getLsbD_reverseBits {n : Nat} (v : BitVec n) (j : Nat) :
    (reverseBits v).getLsbD j = (decide (j < n) && v.getLsbD (n - 1 - j)) := getLsbD_bitsOf _ _ _

theorem getLsbD_deinterleave {n : Nat} (v : BitVec n) (j : Nat) :
    (deinterleave v).getLsbD j = (decide (j < n / 2) && v.getLsbD (2 * j)) := getLsbD_bitsOf _ _ _

theorem getLsbD_interleave (n : Nat) (x y : BitVec (n / 2)) (j : Nat) :
    (interleave n x y).getLsbD j
      = (decide (j < n) && if j % 2 = 0 then x.getLsbD (j / 2) else y.getLsbD (j / 2)) := getLsbD_bitsOf _ _ _

theorem getLsbD_bitSelect {n : Nat} (mask a b : BitVec n) (j : Nat) :
    (bitSelect mask a b).getLsbD j = if mask.getLsbD j then a.getLsbD j else b.getLsbD j := by
  simp only [bitSelect, BitVec.getLsbD_xor, BitVec.getLsbD_and]
  cases mask.getLsbD j <;> simp

theorem getLsbD_byteSwap {n : Nat} (v : BitVec n) (j : Nat) :
    (byteSwap v).getLsbD j = (decide (j < n) && v.getLsbD (8 * (n / 8 - 1 - j / 8) + j % 8)) := getLsbD_bitsOf _ _ _

theorem hasZeroByte_iff {n : Nat} (v : BitVec n) : hasZeroByte v = true ↔ ∃ k < n / 8, lane v k = 0 := by
  simp [hasZeroByte]

end Sys2Proof.Machine
end

