-- ==== Sys2Proof/Laws/Operands.lean ====
section
/-! SUPPORT. Reading an operand: what the width check answers. -/

namespace Sys2Proof.Machine

variable {n : Nat} {k : BitVec n → Result}

/-- A value with zeros above is read whole. -/
theorem withOperand_zext (h : n ≤ 64) (v : BitVec n) : withOperand (zext v) n k = k v := by
  rw [withOperand, if_pos (fits_zext h v), setWidth_zext h]

theorem withOperand_fits {x : Word} (h : fits x n = true) : withOperand x n k = k (x.setWidth n) := if_pos h

/-- A value with a bit above is out of contract (R6). -/
theorem withOperand_wide {x : Word} (h : fits x n = false) : withOperand x n k = .error .operandWidth := by
  rw [withOperand, if_neg (by simp [h])]

/-- An operand read answers what its continuation answers on the low bits, or `operandWidth`. -/
theorem withOperand_cases (x : Word) :
    (fits x n = true ∧ withOperand x n k = k (x.setWidth n))
      ∨ (fits x n = false ∧ withOperand x n k = .error .operandWidth) := by
  cases h : fits x n
  · exact .inr ⟨rfl, withOperand_wide h⟩
  · exact .inl ⟨rfl, withOperand_fits h⟩

end Sys2Proof.Machine
end

