-- ==== Sys2Proof/Laws/PerInstr.lean ====
section
/-! SUPPORT. Lemmas stated per instruction, one per constructor. -/

namespace Sys2Proof.Laws.EncodedWord

/-- The encoding of a well-formed instruction is a word some row of the opcode table admits (R27). -/
def Statement (i : Instr) : Prop := i.wf = true → opcodeRows.any (fun row => row.admits (encode i)) = true

/-- The two rows with free fields, on every legal format: 644 words, enumerated. -/
theorem legal_format_word (op : Op) (wsel : Nat)
    (hop : op.takesFormat = true) (hw : wsel = 0) (fs fe fm : Nat) (h : formatLegal fs fe fm = true) :
    opcodeRows.any (fun row => row.admits (commandWord op wsel fs fe fm)) = true := by
  subst hw
  have hr : fs < 2 ∧ fe < 9 ∧ fm < 24 := by
    simp [formatLegal] at h; omega
  obtain ⟨h1, h2, h3⟩ := hr
  have all : ∀ (a : Fin 2) (b : Fin 9) (c : Fin 24), ∀ o ∈ [Op.fpack, Op.funpack],
      opcodeRows.any (fun row => row.admits (commandWord o 0 a b c)) = true := by decide
  refine all ⟨fs, h1⟩ ⟨fe, h2⟩ ⟨fm, h3⟩ op ?_
  cases op <;> simp [Op.takesFormat] at hop <;> simp

theorem bswap_8 : Statement .bswap_8 := fun _ => by decide
theorem bswap_16 : Statement .bswap_16 := fun _ => by decide
theorem bswap_32 : Statement .bswap_32 := fun _ => by decide
theorem bswap_64 : Statement .bswap_64 := fun _ => by decide
theorem clrlsb_32 : Statement .clrlsb_32 := fun _ => by decide
theorem clrlsb_64 : Statement .clrlsb_64 := fun _ => by decide
theorem explsb_32 : Statement .explsb_32 := fun _ => by decide
theorem explsb_64 : Statement .explsb_64 := fun _ => by decide
theorem lsb_32 : Statement .lsb_32 := fun _ => by decide
theorem lsb_64 : Statement .lsb_64 := fun _ => by decide
theorem exphlsb_32 : Statement .exphlsb_32 := fun _ => by decide
theorem exphlsb_64 : Statement .exphlsb_64 := fun _ => by decide
theorem expmsb_32 : Statement .expmsb_32 := fun _ => by decide
theorem expmsb_64 : Statement .expmsb_64 := fun _ => by decide
theorem idxbit_32 : Statement .idxbit_32 := fun _ => by decide
theorem idxbit_64 : Statement .idxbit_64 := fun _ => by decide
theorem idxexp_32 : Statement .idxexp_32 := fun _ => by decide
theorem idxexp_64 : Statement .idxexp_64 := fun _ => by decide
theorem tzcnt_32 : Statement .tzcnt_32 := fun _ => by decide
theorem tzcnt_64 : Statement .tzcnt_64 := fun _ => by decide
theorem idxlsb_32 : Statement .idxlsb_32 := fun _ => by decide
theorem idxlsb_64 : Statement .idxlsb_64 := fun _ => by decide
theorem lzcnt_32 : Statement .lzcnt_32 := fun _ => by decide
theorem lzcnt_64 : Statement .lzcnt_64 := fun _ => by decide
theorem idxmsb_32 : Statement .idxmsb_32 := fun _ => by decide
theorem idxmsb_64 : Statement .idxmsb_64 := fun _ => by decide
theorem msb_32 : Statement .msb_32 := fun _ => by decide
theorem msb_64 : Statement .msb_64 := fun _ => by decide
theorem log2_32 : Statement .log2_32 := fun _ => by decide
theorem log2_64 : Statement .log2_64 := fun _ => by decide
theorem brev_32 : Statement .brev_32 := fun _ => by decide
theorem brev_64 : Statement .brev_64 := fun _ => by decide
theorem popcnt_32 : Statement .popcnt_32 := fun _ => by decide
theorem popcnt_64 : Statement .popcnt_64 := fun _ => by decide
theorem bext_32 : Statement .bext_32 := fun _ => by decide
theorem bext_64 : Statement .bext_64 := fun _ => by decide
theorem deintl_32 : Statement .deintl_32 := fun _ => by decide
theorem deintl_64 : Statement .deintl_64 := fun _ => by decide
theorem intl1_32 : Statement .intl1_32 := fun _ => by decide
theorem intl1_64 : Statement .intl1_64 := fun _ => by decide
theorem intl2_32 : Statement .intl2_32 := fun _ => by decide
theorem intl2_64 : Statement .intl2_64 := fun _ => by decide
theorem sel_32 : Statement .sel_32 := fun _ => by decide
theorem sel_64 : Statement .sel_64 := fun _ => by decide
theorem haszb_32 : Statement .haszb_32 := fun _ => by decide
theorem haszb_64 : Statement .haszb_64 := fun _ => by decide
theorem ispow2_32 : Statement .ispow2_32 := fun _ => by decide
theorem ispow2_64 : Statement .ispow2_64 := fun _ => by decide
theorem flp2_32 : Statement .flp2_32 := fun _ => by decide
theorem flp2_64 : Statement .flp2_64 := fun _ => by decide
theorem clp2_32 : Statement .clp2_32 := fun _ => by decide
theorem clp2_64 : Statement .clp2_64 := fun _ => by decide
theorem u32tou24 : Statement .u32tou24 := fun _ => by decide
theorem u24tou32 : Statement .u24tou32 := fun _ => by decide
theorem fsign_h : Statement .fsign_h := fun _ => by decide
theorem fsign_f : Statement .fsign_f := fun _ => by decide
theorem fsign_d : Statement .fsign_d := fun _ => by decide
theorem fexp_h : Statement .fexp_h := fun _ => by decide
theorem fexp_f : Statement .fexp_f := fun _ => by decide
theorem fexp_d : Statement .fexp_d := fun _ => by decide
theorem fmant_h : Statement .fmant_h := fun _ => by decide
theorem fmant_f : Statement .fmant_f := fun _ => by decide
theorem fmant_d : Statement .fmant_d := fun _ => by decide
theorem fmake_h : Statement .fmake_h := fun _ => by decide
theorem fmake_f : Statement .fmake_f := fun _ => by decide
theorem fmake_d : Statement .fmake_d := fun _ => by decide
theorem fpack (fs fe fm : Nat) : Statement (.fpack fs fe fm) := fun h => legal_format_word _ _ (by decide) (by decide) fs fe fm h
theorem funpack (fs fe fm : Nat) : Statement (.funpack fs fe fm) := fun h => legal_format_word _ _ (by decide) (by decide) fs fe fm h
theorem f32tof16 : Statement .f32tof16 := fun _ => by decide
theorem f16tof32 : Statement .f16tof32 := fun _ => by decide
theorem u32tof64 : Statement .u32tof64 := fun _ => by decide
theorem f64tou32 : Statement .f64tou32 := fun _ => by decide

end Sys2Proof.Laws.EncodedWord
end

