-- ==== Sys2Proof/Laws/State.lean ====
section
/-! SUPPORT. What each shared update of the state does to each field: one lemma per field per update, true by
definition. -/

namespace Sys2Proof.Machine

section
variable (s : State) (q : Request) (rest : List HostInput) (r v : Word) (st : Status)
variable (reason : UndefReason) (why : IllegalReason)

@[simp] theorem State.accept_host : (s.accept q rest).host = rest := rfl
@[simp] theorem State.accept_inFlight : (s.accept q rest).inFlight = true := rfl
@[simp] theorem State.accept_cmd : (s.accept q rest).cmd = q.cmd := rfl
@[simp] theorem State.accept_a : (s.accept q rest).a = q.a := rfl
@[simp] theorem State.accept_b : (s.accept q rest).b = q.b := rfl
@[simp] theorem State.accept_c : (s.accept q rest).c = q.c := rfl
@[simp] theorem State.accept_responding : (s.accept q rest).responding = false := rfl
@[simp] theorem State.accept_r : (s.accept q rest).r = s.r := rfl
@[simp] theorem State.accept_st : (s.accept q rest).st = s.st := rfl
@[simp] theorem State.accept_draws : (s.accept q rest).draws = s.draws := rfl

@[simp] theorem State.respond_host : (s.respond r st).host = s.host := rfl
@[simp] theorem State.respond_inFlight : (s.respond r st).inFlight = false := rfl
@[simp] theorem State.respond_cmd : (s.respond r st).cmd = s.cmd := rfl
@[simp] theorem State.respond_a : (s.respond r st).a = s.a := rfl
@[simp] theorem State.respond_b : (s.respond r st).b = s.b := rfl
@[simp] theorem State.respond_c : (s.respond r st).c = s.c := rfl
@[simp] theorem State.respond_responding : (s.respond r st).responding = true := rfl
@[simp] theorem State.respond_r : (s.respond r st).r = r := rfl
@[simp] theorem State.respond_st : (s.respond r st).st = st.code := rfl
@[simp] theorem State.respond_draws : (s.respond r st).draws = s.draws + 1 := rfl

@[simp] theorem State.quiet_host : s.quiet.host = s.host := rfl
@[simp] theorem State.quiet_inFlight : s.quiet.inFlight = s.inFlight := rfl
@[simp] theorem State.quiet_cmd : s.quiet.cmd = s.cmd := rfl
@[simp] theorem State.quiet_a : s.quiet.a = s.a := rfl
@[simp] theorem State.quiet_b : s.quiet.b = s.b := rfl
@[simp] theorem State.quiet_c : s.quiet.c = s.c := rfl
@[simp] theorem State.quiet_responding : s.quiet.responding = false := rfl
@[simp] theorem State.quiet_r : s.quiet.r = Config.idleR s.draws := rfl
@[simp] theorem State.quiet_st : s.quiet.st = Config.idleSt s.draws := rfl
@[simp] theorem State.quiet_draws : s.quiet.draws = s.draws + 1 := rfl

@[simp] theorem State.applyReset_host : (s.applyReset rest).host = rest := rfl
@[simp] theorem State.applyReset_inFlight : (s.applyReset rest).inFlight = false := rfl
@[simp] theorem State.applyReset_cmd : (s.applyReset rest).cmd = s.cmd := rfl
@[simp] theorem State.applyReset_a : (s.applyReset rest).a = s.a := rfl
@[simp] theorem State.applyReset_b : (s.applyReset rest).b = s.b := rfl
@[simp] theorem State.applyReset_c : (s.applyReset rest).c = s.c := rfl
@[simp] theorem State.applyReset_responding : (s.applyReset rest).responding = false := rfl
@[simp] theorem State.applyReset_r : (s.applyReset rest).r = Config.idleR s.draws := rfl
@[simp] theorem State.applyReset_st : (s.applyReset rest).st = Config.idleSt s.draws := rfl
@[simp] theorem State.applyReset_draws : (s.applyReset rest).draws = s.draws + 1 := rfl

@[simp] theorem State.answerOk_eq_respond : s.answerOk v = s.respond v .ok := rfl
@[simp] theorem State.raise_eq_respond : s.raise st = s.respond (Config.undefResult s.draws) st := rfl
@[simp] theorem State.raiseUndef_eq_raise : s.raiseUndef reason = s.raise .undef := rfl
@[simp] theorem State.raiseIllegal_eq_raise : s.raiseIllegal why = s.raise .illegal := rfl
@[simp] theorem State.answer_ok : s.answer (.ok v) = s.answerOk v := rfl
@[simp] theorem State.answer_error : s.answer (.error reason) = s.raise .undef := rfl
@[simp] theorem Status.code_ok : Status.ok.code = 0 := rfl
@[simp] theorem Status.code_undef : Status.undef.code = 1 := rfl
@[simp] theorem Status.code_illegal : Status.illegal.code = 2 := rfl

/-- The code 3 is no status's (R73). -/
theorem Status.code_ne_three : st.code ≠ 3 := by cases st <;> decide

end

/-- A response is `OK` exactly where the operation answered a result. -/
theorem State.answer_eq (s : State) (res : Result) :
    s.answer res = match res with | .ok v => s.respond v .ok | .error _ => s.respond (Config.undefResult s.draws) .undef := by
  cases res <;> rfl

/-- The status after any answer is the code of the result's status. -/
theorem State.answer_st (s : State) (res : Result) : (s.answer res).st = (statusOf res).code := by
  cases res <;> rfl

end Sys2Proof.Machine
end

