-- ==== Sys2Proof/Laws/Step.lean ====
section
/-! SUPPORT. What an instruction and a step can do, said once. -/

namespace Sys2Proof.Machine

/-- Every instruction gives one response and does nothing else: the response has a status, and the state is the old one
with that response given. -/
theorem exec_responds (i : Instr) (s : State) : ∃ r st, exec i s = .next (s.respond r st) := by
  have answered : ∀ res : Result, ∃ r st, (Host.Outcome.next (s.answer res) : StepResult) = .next (s.respond r st) := by
    intro res
    cases res with
    | ok v => exact ⟨v, .ok, rfl⟩
    | error e => exact ⟨_, .undef, rfl⟩
  cases i with
  | fpack fs fe fm =>
    show ∃ r st, (Host.Outcome.next (if formatLegal fs fe fm then s.answer (packResult s.draws fs fe fm s.a)
      else s.raiseIllegal .formatRange) : StepResult) = _
    split
    · exact answered _
    · exact ⟨_, .illegal, rfl⟩
  | funpack fs fe fm =>
    show ∃ r st, (Host.Outcome.next (if formatLegal fs fe fm then s.answer (unpackResult fs fe fm s.a s.b s.c)
      else s.raiseIllegal .formatRange) : StepResult) = _
    split
    · exact answered _
    · exact ⟨_, .illegal, rfl⟩
  | _ => exact answered _

/-- Answering the request in flight gives one response and does nothing else. -/
theorem serve_responds (s : State) : ∃ r st, serve s = .next (s.respond r st) := by
  unfold serve
  cases decode s.cmd with
  | ok i => exact exec_responds i s
  | error e => exact ⟨_, .illegal, rfl⟩

/-- Two states with the same operands at the same draw number get the same answer, and nothing else of either is read. -/
theorem exec_responds_alike (i : Instr) {s s' : State} (ha : s.a = s'.a) (hb : s.b = s'.b) (hc : s.c = s'.c)
    (hd : s.draws = s'.draws) :
    ∃ r st, exec i s = .next (s.respond r st) ∧ exec i s' = .next (s'.respond r st) := by
  have answered : ∀ res : Result, ∃ r st, s.answer res = s.respond r st ∧ s'.answer res = s'.respond r st := by
    intro res
    cases res with
    | ok v => exact ⟨v, .ok, rfl, rfl⟩
    | error e => exact ⟨Config.undefResult s.draws, .undef, rfl, by rw [hd]; rfl⟩
  have same : ∀ res res' : Result, res = res' →
      ∃ r st, (Host.Outcome.next (s.answer res) : StepResult) = .next (s.respond r st)
        ∧ (Host.Outcome.next (s'.answer res') : StepResult) = .next (s'.respond r st) := by
    rintro res _ rfl
    obtain ⟨r, st, h, h'⟩ := answered res
    exact ⟨r, st, by rw [h], by rw [h']⟩
  have illegal : ∃ r st, (Host.Outcome.next (s.raiseIllegal .formatRange) : StepResult) = .next (s.respond r st)
      ∧ (Host.Outcome.next (s'.raiseIllegal .formatRange) : StepResult) = .next (s'.respond r st) :=
    ⟨Config.undefResult s.draws, .illegal, rfl, by rw [hd]; rfl⟩
  cases i with
  | fpack fs fe fm =>
    simp only [exec, execFpack]
    split
    · exact same _ _ (by rw [ha, hd])
    · exact illegal
  | funpack fs fe fm =>
    simp only [exec, execFunpack]
    split
    · exact same _ _ (by rw [ha, hb, hc])
    · exact illegal
  | f32tof16 => exact same _ _ (by rw [ha, hd])
  | bext_32 | bext_64 | sel_32 | sel_64 | fmake_h | fmake_f | fmake_d => exact same _ _ (by rw [ha, hb, hc])
  | intl2_32 | intl2_64 => exact same _ _ (by rw [ha, hb])
  | _ => exact same _ _ (by rw [ha])

/-- The same for the request in flight. -/
theorem serve_responds_alike {s s' : State} (hq : s.cmd = s'.cmd) (ha : s.a = s'.a) (hb : s.b = s'.b) (hc : s.c = s'.c)
    (hd : s.draws = s'.draws) :
    ∃ r st, serve s = .next (s.respond r st) ∧ serve s' = .next (s'.respond r st) := by
  unfold serve
  rw [← hq]
  cases decode s.cmd with
  | ok i => exact exec_responds_alike i ha hb hc hd
  | error e => exact ⟨Config.undefResult s.draws, .illegal, rfl, by rw [hd]; rfl⟩

/-- The five kinds of step. -/
theorem step_cases (s : State) :
    (∃ rest, s.host = .reset :: rest ∧ step s = .next (s.applyReset rest))
    ∨ (s.inFlight = true ∧ (∀ rest, s.host ≠ .reset :: rest) ∧ step s = serve s)
    ∨ (∃ q rest, s.inFlight = false ∧ s.host = .request q :: rest ∧ step s = serve (s.accept q rest))
    ∨ (∃ q rest, s.inFlight = false ∧ s.host = .launch q :: rest ∧ step s = .next (s.accept q rest).quiet)
    ∨ (s.inFlight = false ∧ s.host = [] ∧ step s = .next s.quiet) := by
  cases hh : s.host with
  | nil => cases hf : s.inFlight <;> simp [step, transaction, hh, hf]
  | cons x rest => cases x <;> cases hf : s.inFlight <;> simp [step, transaction, hh, hf]

/-- A run of one step more, when the first step is known. -/
theorem core_run_succ {s t : State} (k : Nat) (h : step s = .next t) : core.run (k + 1) s = core.run k t := by
  have first : core.step s = .next t := h
  show Host.Core.run core (k + 1) s = _
  simp only [Host.Core.run, first]

end Sys2Proof.Machine
end

