-- ==== Sys2Proof/Laws/Script.lean ====
section
/-! SUPPORT. What a script line and a script can do, said once. -/

namespace Sys2Proof.Machine

variable {s : State} {results : List Word} {line : ScriptLine} {rest : List ScriptLine}

/-- A line has a request exactly when its format fits the command word and every operand has a value. -/
theorem ScriptLine.request_eq_some {q : Request} :
    line.request results = some q ↔
      formatFits line.instr = true ∧ ∃ vs, line.operands.mapM (ScriptOperand.value results) = some vs
        ∧ q = ⟨encode line.instr, vs.getD 0 0, vs.getD 1 0, vs.getD 2 0⟩ := by
  unfold ScriptLine.request
  cases formatFits line.instr <;> simp [eq_comm]

/-- An operand has a value exactly when it is a literal or names an earlier line, lines counted from 1. -/
theorem ScriptOperand.value_isSome (x : ScriptOperand) :
    (x.value results).isSome = true ↔ ∀ k, x = .resultOf k → 1 ≤ k ∧ k ≤ results.length := by
  rcases x with v | _ | k <;> simp [ScriptOperand.value]

/-- A line with no request ends the script. -/
theorem runScript_cons_none (h : line.request results = none) : runScript s results (line :: rest) = [] := by
  simp [runScript, h]

/-- A line with a request gets one response, and the script goes on with its result when the status is `OK`. -/
theorem runScript_cons_some {q : Request} (h : line.request results = some q) :
    ∃ r st, step { s with host := [.request q], inFlight := false } = .next ((s.accept q []).respond r st)
      ∧ runScript s results (line :: rest) = ⟨r, st.code⟩ ::
          if st.code = Status.ok.code then runScript ((s.accept q []).respond r st) (results ++ [r]) rest else [] := by
  obtain ⟨r, st, hr⟩ := serve_responds (s.accept q [])
  have hs : step { s with host := [.request q], inFlight := false } = .next ((s.accept q []).respond r st) := hr
  exact ⟨r, st, hs, by simp only [runScript, h, hs]; rfl⟩

end Sys2Proof.Machine
end

