-- ==== Sys2Proof/Tests/Slice0.lean ====
section
/-! SUPPORT. Tests. Expected results come from spec/95_test_vectors.md and spec/30_encoding.md. A result whose bits the spec leaves
open is never compared. The witnesses at the end show that each statement's hypotheses can be met. -/

namespace Sys2Proof.Tests

open Sys2Proof Sys2Proof.Machine

/-! ## Helpers -/

/-- An idle unit after reset that is presented with one request. -/
def presented (cmd : Command) (a b c : Word) : State := { State.reset with host := [.request ⟨cmd, a, b, c⟩] }

/-- A request has been accepted with these operands. -/
def onPorts (a b c : Word) : State := { State.reset with inFlight := true, a := a, b := b, c := c }

/-- One step answers `OK` with this result. -/
def gives (cmd : Command) (a b c r : Word) : Bool :=
  match step (presented cmd a b c) with
  | .next t => t.responding && t.st == 0 && t.r == r
  | .fault _ => false
  | .refused _ => false

/-- The status one step answers with. -/
def statusOn (cmd : Command) (a b c : Word) : Option (BitVec 2) :=
  match step (presented cmd a b c) with
  | .next t => some t.st
  | .fault _ => none
  | .refused _ => none

/-! ## WellFormed: an ill-formed term for each check of R25, which the check refuses -/

theorem test_wf_sign_bits : (Instr.fpack 2 5 10).wf = false ∧ (Instr.funpack 2 5 10).wf = false := by decide
theorem test_wf_exponent_low : (Instr.fpack 1 1 10).wf = false ∧ (Instr.funpack 1 1 10).wf = false := by decide
theorem test_wf_exponent_high : (Instr.fpack 1 9 10).wf = false ∧ (Instr.funpack 1 9 10).wf = false := by decide
theorem test_wf_mantissa_low : (Instr.fpack 1 5 0).wf = false ∧ (Instr.funpack 1 5 0).wf = false := by decide
theorem test_wf_mantissa_high : (Instr.fpack 1 5 24).wf = false ∧ (Instr.funpack 1 5 24).wf = false := by decide
theorem test_wf_bounds : (Instr.fpack 0 2 1).wf = true ∧ (Instr.funpack 1 8 23).wf = true := by decide

/-! ## Decoding: the words written out from R21 to R25, the fields in the order reserved, FM, FE, FS, WSEL, OPC -/

theorem test_decode_byte_lane :
    decode 0b000000000000_00000_0000_0_00_00000001 = .ok .bswap_8
    ∧ decode 0b000000000000_00000_0000_0_01_00000001 = .ok .bswap_16
    ∧ decode 0b000000000000_00000_0000_0_10_00000001 = .ok .bswap_32
    ∧ decode 0b000000000000_00000_0000_0_11_00000001 = .ok .bswap_64
    ∧ decode 0b000000000000_00000_0000_0_00_00011010 = .ok .u32tou24
    ∧ decode 0b000000000000_00000_0000_0_00_00011011 = .ok .u24tou32 := by decide

theorem test_decode_masks :
    decode 0b000000000000_00000_0000_0_10_00000010 = .ok .clrlsb_32
    ∧ decode 0b000000000000_00000_0000_0_11_00000010 = .ok .clrlsb_64
    ∧ decode 0b000000000000_00000_0000_0_10_00000011 = .ok .explsb_32
    ∧ decode 0b000000000000_00000_0000_0_11_00000011 = .ok .explsb_64
    ∧ decode 0b000000000000_00000_0000_0_10_00000100 = .ok .lsb_32
    ∧ decode 0b000000000000_00000_0000_0_11_00000100 = .ok .lsb_64
    ∧ decode 0b000000000000_00000_0000_0_10_00000101 = .ok .exphlsb_32
    ∧ decode 0b000000000000_00000_0000_0_11_00000101 = .ok .exphlsb_64
    ∧ decode 0b000000000000_00000_0000_0_10_00000110 = .ok .expmsb_32
    ∧ decode 0b000000000000_00000_0000_0_11_00000110 = .ok .expmsb_64
    ∧ decode 0b000000000000_00000_0000_0_10_00001101 = .ok .msb_32
    ∧ decode 0b000000000000_00000_0000_0_11_00001101 = .ok .msb_64 := by decide

theorem test_decode_index_count :
    decode 0b000000000000_00000_0000_0_10_00000111 = .ok .idxbit_32
    ∧ decode 0b000000000000_00000_0000_0_11_00000111 = .ok .idxbit_64
    ∧ decode 0b000000000000_00000_0000_0_10_00001000 = .ok .idxexp_32
    ∧ decode 0b000000000000_00000_0000_0_11_00001000 = .ok .idxexp_64
    ∧ decode 0b000000000000_00000_0000_0_10_00001001 = .ok .tzcnt_32
    ∧ decode 0b000000000000_00000_0000_0_11_00001001 = .ok .tzcnt_64
    ∧ decode 0b000000000000_00000_0000_0_10_00001010 = .ok .idxlsb_32
    ∧ decode 0b000000000000_00000_0000_0_11_00001010 = .ok .idxlsb_64
    ∧ decode 0b000000000000_00000_0000_0_10_00001011 = .ok .lzcnt_32
    ∧ decode 0b000000000000_00000_0000_0_11_00001011 = .ok .lzcnt_64
    ∧ decode 0b000000000000_00000_0000_0_10_00001100 = .ok .idxmsb_32
    ∧ decode 0b000000000000_00000_0000_0_11_00001100 = .ok .idxmsb_64
    ∧ decode 0b000000000000_00000_0000_0_10_00001110 = .ok .log2_32
    ∧ decode 0b000000000000_00000_0000_0_11_00001110 = .ok .log2_64
    ∧ decode 0b000000000000_00000_0000_0_10_00001111 = .ok .brev_32
    ∧ decode 0b000000000000_00000_0000_0_11_00001111 = .ok .brev_64
    ∧ decode 0b000000000000_00000_0000_0_10_00010000 = .ok .popcnt_32
    ∧ decode 0b000000000000_00000_0000_0_11_00010000 = .ok .popcnt_64 := by decide

theorem test_decode_extract :
    decode 0b000000000000_00000_0000_0_10_00010001 = .ok .bext_32
    ∧ decode 0b000000000000_00000_0000_0_11_00010001 = .ok .bext_64
    ∧ decode 0b000000000000_00000_0000_0_10_00010010 = .ok .deintl_32
    ∧ decode 0b000000000000_00000_0000_0_11_00010010 = .ok .deintl_64
    ∧ decode 0b000000000000_00000_0000_0_10_00010011 = .ok .intl1_32
    ∧ decode 0b000000000000_00000_0000_0_11_00010011 = .ok .intl1_64
    ∧ decode 0b000000000000_00000_0000_0_10_00010100 = .ok .intl2_32
    ∧ decode 0b000000000000_00000_0000_0_11_00010100 = .ok .intl2_64
    ∧ decode 0b000000000000_00000_0000_0_10_00010101 = .ok .sel_32
    ∧ decode 0b000000000000_00000_0000_0_11_00010101 = .ok .sel_64 := by decide

theorem test_decode_predicates :
    decode 0b000000000000_00000_0000_0_10_00010110 = .ok .haszb_32
    ∧ decode 0b000000000000_00000_0000_0_11_00010110 = .ok .haszb_64
    ∧ decode 0b000000000000_00000_0000_0_10_00010111 = .ok .ispow2_32
    ∧ decode 0b000000000000_00000_0000_0_11_00010111 = .ok .ispow2_64
    ∧ decode 0b000000000000_00000_0000_0_10_00011000 = .ok .flp2_32
    ∧ decode 0b000000000000_00000_0000_0_11_00011000 = .ok .flp2_64
    ∧ decode 0b000000000000_00000_0000_0_10_00011001 = .ok .clp2_32
    ∧ decode 0b000000000000_00000_0000_0_11_00011001 = .ok .clp2_64 := by decide

theorem test_decode_float_fields :
    decode 0b000000000000_00000_0000_0_01_00100000 = .ok .fsign_h
    ∧ decode 0b000000000000_00000_0000_0_10_00100000 = .ok .fsign_f
    ∧ decode 0b000000000000_00000_0000_0_11_00100000 = .ok .fsign_d
    ∧ decode 0b000000000000_00000_0000_0_01_00100001 = .ok .fexp_h
    ∧ decode 0b000000000000_00000_0000_0_10_00100001 = .ok .fexp_f
    ∧ decode 0b000000000000_00000_0000_0_11_00100001 = .ok .fexp_d
    ∧ decode 0b000000000000_00000_0000_0_01_00100010 = .ok .fmant_h
    ∧ decode 0b000000000000_00000_0000_0_10_00100010 = .ok .fmant_f
    ∧ decode 0b000000000000_00000_0000_0_11_00100010 = .ok .fmant_d
    ∧ decode 0b000000000000_00000_0000_0_01_00100011 = .ok .fmake_h
    ∧ decode 0b000000000000_00000_0000_0_10_00100011 = .ok .fmake_f
    ∧ decode 0b000000000000_00000_0000_0_11_00100011 = .ok .fmake_d := by decide

theorem test_decode_float_convert :
    decode 0b000000000000_00001_0010_0_00_00100100 = .ok (.fpack 0 2 1)
    ∧ decode 0b000000000000_10111_1000_1_00_00100100 = .ok (.fpack 1 8 23)
    ∧ decode 0b000000000000_01010_0101_1_00_00100100 = .ok (.fpack 1 5 10)
    ∧ decode 0b000000000000_00001_0010_0_00_00100101 = .ok (.funpack 0 2 1)
    ∧ decode 0b000000000000_10111_1000_1_00_00100101 = .ok (.funpack 1 8 23)
    ∧ decode 0b000000000000_01010_0101_1_00_00100101 = .ok (.funpack 1 5 10)
    ∧ decode 0b000000000000_00000_0000_0_00_00100110 = .ok .f32tof16
    ∧ decode 0b000000000000_00000_0000_0_00_00100111 = .ok .f16tof32
    ∧ decode 0b000000000000_00000_0000_0_00_00101000 = .ok .u32tof64
    ∧ decode 0b000000000000_00000_0000_0_00_00101001 = .ok .f64tou32 := by decide

/-- spec/95_test_vectors.md section 2.8, by the clause of R26. -/
theorem test_decode_illegal :
    decode 0x00100210 = .error .reservedBits ∧ decode 0x80000210 = .error .reservedBits
    ∧ decode 0x00000000 = .error .reservedOpcode ∧ decode 0x0000021C = .error .reservedOpcode
    ∧ decode 0x0000002A = .error .reservedOpcode ∧ decode 0x000002FF = .error .reservedOpcode
    ∧ decode 0x00000010 = .error .widthSelect ∧ decode 0x00000110 = .error .widthSelect
    ∧ decode 0x00000126 = .error .widthSelect ∧ decode 0x00000020 = .error .widthSelect
    ∧ decode 0x00000610 = .error .strayFormatBits ∧ decode 0x00008210 = .error .strayFormatBits
    ∧ decode 0x00000024 = .error .formatRange ∧ decode 0x000C2C24 = .error .formatRange
    ∧ decode 0x00054C25 = .error .formatRange := by decide

/-- The status of an illegal command, whatever the operands (R74, R76): the third is out of contract as well. -/
theorem test_illegal_status :
    statusOn 0x00000010 0xFF 0 0 = some 2 ∧ statusOn 0xFFFFFFFF 0 0 0 = some 2
    ∧ statusOn 0x00000109 0 0 0 = some 2 ∧ statusOn 0x00000024 0x3F800000 0 0 = some 2 := by decide

/-- `encode` against the worked table of spec/30_encoding.md section 7. -/
theorem test_encode :
    encode .bswap_8 = 0x001 ∧ encode .bswap_64 = 0x301 ∧ encode .tzcnt_32 = 0x209 ∧ encode .clp2_64 = 0x319
    ∧ encode .fexp_d = 0x321 ∧ encode .f32tof16 = 0x026 ∧ encode (.fpack 0 5 6) = 0x32824
    ∧ encode (.funpack 1 5 10) = 0x52C25 := by decide

/-- The host's numbering of a command word. -/
theorem test_decodeTableWord :
    decodeTableWord 32 0x210 = some .popcnt_32 ∧ decodeTableWord 32 0x52C24 = some (.fpack 1 5 10)
    ∧ decodeTableWord 32 0x10 = none := by decide


/-! ## One step per instruction: requests and responses of spec/95_test_vectors.md section 2 -/

/-- spec/95_test_vectors.md section 2.1. -/
theorem test_bswap :
    gives 1 0xA5 0 0 0xA5 = true
    ∧ gives 0x101 0x1234 0 0 0x3412 = true
    ∧ gives 0x201 0x11223344 0 0 0x44332211 = true
    ∧ gives 0x301 0x102030405060708 0 0 0x807060504030201 = true
    ∧ statusOn 1 0x100 0 0 = some 1
    ∧ statusOn 0x101 0x12345 0 0 = some 1
    ∧ statusOn 0x201 0x100000000 0 0 = some 1 := by decide

/-- spec/95_test_vectors.md section 2.1. -/
theorem test_u32tou24 :
    gives 0x1A 0x123456 0 0 0x123456 = true
    ∧ gives 0x1A 0xFFFFFF 0 0 0xFFFFFF = true
    ∧ statusOn 0x1A 0x1000000 0 0 = some 1
    ∧ statusOn 0x1A 0x100000000 0 0 = some 1 := by decide

/-- spec/95_test_vectors.md section 2.1. -/
theorem test_u24tou32 :
    gives 0x1B 0xABCDEF 0 0 0xABCDEF = true
    ∧ gives 0x1B 0xFFFFFF 0 0 0xFFFFFF = true
    ∧ statusOn 0x1B 0x1000000 0 0 = some 1 := by decide

/-- spec/95_test_vectors.md section 2.2. -/
theorem test_clrlsb :
    gives 0x202 0 0 0 0 = true
    ∧ gives 0x202 0xB0 0 0 0xA0 = true
    ∧ gives 0x302 0xB000000000 0 0 0xA000000000 = true
    ∧ gives 0x302 0x8000000000000000 0 0 0 = true
    ∧ statusOn 0x202 0x1000000B0 0 0 = some 1 := by decide

/-- spec/95_test_vectors.md section 2.2. -/
theorem test_explsb :
    gives 0x203 0 0 0 0xFFFFFFFF = true
    ∧ gives 0x203 0xB0 0 0 0x1F = true
    ∧ gives 0x303 0 0 0 0xFFFFFFFFFFFFFFFF = true
    ∧ gives 0x303 0xB000000000 0 0 0x1FFFFFFFFF = true := by decide

/-- spec/95_test_vectors.md section 2.2. -/
theorem test_lsb :
    gives 0x204 0 0 0 0 = true
    ∧ gives 0x204 0xB0 0 0 0x10 = true
    ∧ gives 0x304 0x8000000000000000 0 0 0x8000000000000000 = true
    ∧ gives 0x304 0xB000000000 0 0 0x1000000000 = true := by decide

/-- spec/95_test_vectors.md section 2.2. -/
theorem test_exphlsb :
    gives 0x205 0 0 0 0 = true
    ∧ gives 0x205 0xB0 0 0 0xFFFFFFF0 = true
    ∧ gives 0x305 0 0 0 0 = true
    ∧ gives 0x305 0xB000000000 0 0 0xFFFFFFF000000000 = true := by decide

/-- spec/95_test_vectors.md section 2.2. -/
theorem test_expmsb :
    gives 0x206 0 0 0 0 = true
    ∧ gives 0x206 0xB0 0 0 0xFF = true
    ∧ gives 0x306 0x8000000000000000 0 0 0xFFFFFFFFFFFFFFFF = true
    ∧ gives 0x306 0xB000000000 0 0 0xFFFFFFFFFF = true := by decide

/-- spec/95_test_vectors.md section 2.2. -/
theorem test_msb :
    gives 0x20D 0xB0 0 0 0x80 = true
    ∧ gives 0x20D 0xFFFFFFFF 0 0 0x80000000 = true
    ∧ gives 0x30D 0xB000000000 0 0 0x8000000000 = true
    ∧ statusOn 0x20D 0 0 0 = some 1
    ∧ statusOn 0x30D 0 0 0 = some 1 := by decide

/-- spec/95_test_vectors.md section 2.3. -/
theorem test_idxbit :
    gives 0x207 0x100 0 0 8 = true
    ∧ gives 0x207 0x80000000 0 0 0x1F = true
    ∧ gives 0x307 0x8000000000000000 0 0 0x3F = true
    ∧ statusOn 0x207 0 0 0 = some 1
    ∧ statusOn 0x207 3 0 0 = some 1
    ∧ statusOn 0x307 0x8000000000000001 0 0 = some 1 := by decide

/-- spec/95_test_vectors.md section 2.3. -/
theorem test_idxexp :
    gives 0x208 0xFF 0 0 7 = true
    ∧ gives 0x208 0xFFFFFFFF 0 0 0x1F = true
    ∧ gives 0x308 0xFFFFFFFFFFFFFFFF 0 0 0x3F = true
    ∧ statusOn 0x208 0 0 0 = some 1
    ∧ statusOn 0x208 2 0 0 = some 1
    ∧ statusOn 0x208 0xFFFFFFFE 0 0 = some 1
    ∧ statusOn 0x308 0x100000000 0 0 = some 1 := by decide

/-- spec/95_test_vectors.md section 2.3. -/
theorem test_tzcnt :
    gives 0x209 0xB0 0 0 4 = true
    ∧ gives 0x209 0x80000000 0 0 0x1F = true
    ∧ gives 0x309 0x8000000000000000 0 0 0x3F = true
    ∧ statusOn 0x209 0 0 0 = some 1
    ∧ statusOn 0x309 0 0 0 = some 1 := by decide

/-- spec/95_test_vectors.md section 2.3. -/
theorem test_idxlsb :
    gives 0x20A 8 0 0 3 = true
    ∧ gives 0x20A 0x11 0 0 0 = true
    ∧ gives 0x30A 0x100000000 0 0 0x20 = true
    ∧ statusOn 0x20A 0 0 0 = some 1
    ∧ statusOn 0x30A 0 0 0 = some 1 := by decide

/-- spec/95_test_vectors.md section 2.3. -/
theorem test_lzcnt :
    gives 0x20B 1 0 0 0x1F = true
    ∧ gives 0x20B 0xB0 0 0 0x18 = true
    ∧ gives 0x30B 0x10000 0 0 0x2F = true
    ∧ statusOn 0x20B 0 0 0 = some 1
    ∧ statusOn 0x30B 0 0 0 = some 1 := by decide

/-- spec/95_test_vectors.md section 2.3. -/
theorem test_idxmsb :
    gives 0x20C 0xB0 0 0 7 = true
    ∧ gives 0x20C 0x11 0 0 4 = true
    ∧ gives 0x30C 0x100000000 0 0 0x20 = true
    ∧ statusOn 0x20C 0 0 0 = some 1
    ∧ statusOn 0x30C 0 0 0 = some 1 := by decide

/-- spec/95_test_vectors.md section 2.3. -/
theorem test_log2 :
    gives 0x20E 0xB0 0 0 7 = true
    ∧ gives 0x20E 0xFFFFFFFF 0 0 0x1F = true
    ∧ gives 0x30E 0xFFFFFFFFFFFFFFFF 0 0 0x3F = true
    ∧ statusOn 0x20E 0 0 0 = some 1
    ∧ statusOn 0x30E 0 0 0 = some 1 := by decide

/-- spec/95_test_vectors.md section 2.3. -/
theorem test_brev :
    gives 0x20F 0x12345678 0 0 0x1E6A2C48 = true
    ∧ gives 0x30F 0x123456789ABCDEF0 0 0 0xF7B3D591E6A2C48 = true := by decide

/-- spec/95_test_vectors.md section 2.3. -/
theorem test_popcnt :
    gives 0x210 0x12345678 0 0 0xD = true
    ∧ gives 0x210 0xFFFFFFFF 0 0 0x20 = true
    ∧ gives 0x310 0xFFFFFFFFFFFFFFFF 0 0 0x40 = true
    ∧ statusOn 0x210 0x1FFFFFFFF 0 0 = some 1 := by decide

/-- spec/95_test_vectors.md section 2.4. -/
theorem test_bext :
    gives 0x211 0xABCD1234 8 0xC 0xD12 = true
    ∧ gives 0x211 0xABCD1234 0 0x20 0xABCD1234 = true
    ∧ gives 0x211 0xABCD1234 0x20 0 0 = true
    ∧ gives 0x311 0x123456789ABCDEF0 0x20 0x20 0x12345678 = true
    ∧ statusOn 0x211 0xABCD1234 8 0x19 = some 1
    ∧ statusOn 0x211 0xABCD1234 0xFFFFFFFFFFFFFFFF 1 = some 1
    ∧ statusOn 0x311 0x123456789ABCDEF0 4 0x3D = some 1 := by decide

/-- spec/95_test_vectors.md section 2.4. -/
theorem test_deintl :
    gives 0x212 0x27 0 0 3 = true
    ∧ gives 0x212 0x9ABC5678 0 0 0x46EC = true
    ∧ gives 0x312 0x123456789ABCDEF0 0 0 0x46EC46EC = true := by decide

/-- spec/95_test_vectors.md section 2.4. -/
theorem test_intl1 :
    gives 0x213 7 0 0 0x15 = true
    ∧ gives 0x213 0x8000 0 0 0x40000000 = true
    ∧ gives 0x313 0x80000001 0 0 0x4000000000000001 = true
    ∧ statusOn 0x213 0x10000 0 0 = some 1
    ∧ statusOn 0x313 0x100000000 0 0 = some 1 := by decide

/-- spec/95_test_vectors.md section 2.4. -/
theorem test_intl2 :
    gives 0x214 3 5 0 0x27 = true
    ∧ gives 0x214 5 3 0 0x1B = true
    ∧ gives 0x314 0x12345678 0x9ABCDEF0 0 0x838C8FB0B3BCBF40 = true
    ∧ statusOn 0x214 0x10000 0 0 = some 1
    ∧ statusOn 0x214 0 0x10000 0 = some 1 := by decide

/-- spec/95_test_vectors.md section 2.4. -/
theorem test_sel :
    gives 0x215 0xFFFF 0x12345678 0x9ABCDEF0 0x9ABC5678 = true
    ∧ gives 0x315 0xFFFFFFFF00000000 0x1111111111111111 0x2222222222222222 0x1111111122222222 = true
    ∧ statusOn 0x215 0x100000000 0 0 = some 1 := by decide

/-- spec/95_test_vectors.md section 2.5. -/
theorem test_haszb :
    gives 0x216 0xFF00FF 0 0 1 = true
    ∧ gives 0x216 0x1010101 0 0 0 = true
    ∧ gives 0x216 0x100 0 0 1 = true
    ∧ gives 0x316 0x1122330055667788 0 0 1 = true
    ∧ gives 0x316 0x8080808080808080 0 0 0 = true := by decide

/-- spec/95_test_vectors.md section 2.5. -/
theorem test_ispow2 :
    gives 0x217 0 0 0 1 = true
    ∧ gives 0x217 0x80000000 0 0 1 = true
    ∧ gives 0x217 6 0 0 0 = true
    ∧ gives 0x317 0x100000000 0 0 1 = true
    ∧ gives 0x317 0x8000000000000001 0 0 0 = true := by decide

/-- spec/95_test_vectors.md section 2.5. -/
theorem test_flp2 :
    gives 0x218 0x11 0 0 0x10 = true
    ∧ gives 0x218 0xF 0 0 8 = true
    ∧ gives 0x318 0xFFFFFFFFFFFFFFFF 0 0 0x8000000000000000 = true
    ∧ statusOn 0x218 0 0 0 = some 1
    ∧ statusOn 0x318 0 0 0 = some 1 := by decide

/-- spec/95_test_vectors.md section 2.5. -/
theorem test_clp2 :
    gives 0x219 0x11 0 0 0x20 = true
    ∧ gives 0x219 0x80000000 0 0 0x80000000 = true
    ∧ gives 0x319 0x100000001 0 0 0x200000000 = true
    ∧ statusOn 0x219 0 0 0 = some 1
    ∧ statusOn 0x219 0x80000001 0 0 = some 1
    ∧ statusOn 0x319 0x8000000000000001 0 0 = some 1 := by decide

/-- spec/95_test_vectors.md section 2.6. -/
theorem test_fsign :
    gives 0x120 0xFE01 0 0 1 = true
    ∧ gives 0x220 0xC0490FDB 0 0 1 = true
    ∧ gives 0x320 0x8000000000000001 0 0 1 = true
    ∧ statusOn 0x120 0x10000 0 0 = some 1 := by decide

/-- spec/95_test_vectors.md section 2.6. -/
theorem test_fexp :
    gives 0x121 0x7BFF 0 0 0x1E = true
    ∧ gives 0x221 0xC0490FDB 0 0 0x80 = true
    ∧ gives 0x321 0x4338000000000000 0 0 0x433 = true
    ∧ statusOn 0x221 0x100000000 0 0 = some 1 := by decide

/-- spec/95_test_vectors.md section 2.6. -/
theorem test_fmant :
    gives 0x122 0xFE01 0 0 0x201 = true
    ∧ gives 0x222 0xC0490FDB 0 0 0x490FDB = true
    ∧ gives 0x322 0x4338000000000000 0 0 0x8000000000000 = true := by decide

/-- spec/95_test_vectors.md section 2.6. -/
theorem test_fmake :
    gives 0x123 1 0x1F 0x201 0xFE01 = true
    ∧ gives 0x223 1 0x80 0x490FDB 0xC0490FDB = true
    ∧ gives 0x323 0 0x433 0x8000000000000 0x4338000000000000 = true
    ∧ statusOn 0x123 2 0xF 0 = some 1
    ∧ statusOn 0x223 0 0x100 0 = some 1
    ∧ statusOn 0x323 0 0 0x10000000000000 = some 1 := by decide

/-- spec/95_test_vectors.md section 2.7. -/
theorem test_fpack :
    gives 0x32824 0xBF800000 0 0 0x3C0 = true
    ∧ gives 0x32824 0x477FE000 0 0 0x7C0 = true
    ∧ gives 0x3C424 0x400000 0 0 0x40 = true
    ∧ gives 0x9424 0x3E800000 0 0 1 = true
    ∧ statusOn 0x52C24 0x100000000 0 0 = some 1 := by decide

/-- spec/95_test_vectors.md section 2.7. -/
theorem test_funpack :
    gives 0x32825 0 0 1 0x35800000 = true
    ∧ gives 0x32825 0 0x1F 1 0x7F820000 = true
    ∧ gives 0x3C425 0 0 1 0x10000 = true
    ∧ gives 0x9425 1 3 1 0xFFC00000 = true
    ∧ statusOn 0x32825 1 0xF 0 = some 1
    ∧ statusOn 0x52C25 0 0x20 0 = some 1
    ∧ statusOn 0x52C25 0 0 0x400 = some 1 := by decide

/-- spec/95_test_vectors.md section 2.7. -/
theorem test_f32tof16 :
    gives 0x26 0x477FEFFF 0 0 0x7BFF = true
    ∧ gives 0x26 0x477FF000 0 0 0x7C00 = true
    ∧ gives 0x26 0x3F801000 0 0 0x3C01 = true
    ∧ gives 0x26 0x33000000 0 0 1 = true
    ∧ statusOn 0x26 0x100000000 0 0 = some 1 := by decide

/-- spec/95_test_vectors.md section 2.7. -/
theorem test_f16tof32 :
    gives 0x27 1 0 0 0x33800000 = true
    ∧ gives 0x27 0x7BFF 0 0 0x477FE000 = true
    ∧ gives 0x27 0xFE09 0 0 0xFFC12000 = true
    ∧ statusOn 0x27 0x10000 0 0 = some 1 := by decide

/-- spec/95_test_vectors.md section 2.7. -/
theorem test_u32tof64 :
    gives 0x28 0 0 0 0 = true
    ∧ gives 0x28 0xFFFFFFFF 0 0 0x41EFFFFFFFE00000 = true
    ∧ statusOn 0x28 0x100000000 0 0 = some 1 := by decide

/-- spec/95_test_vectors.md section 2.7. -/
theorem test_f64tou32 :
    gives 0x29 0x41EFFFFFFFE00000 0 0 0xFFFFFFFF = true
    ∧ gives 0x29 0x3FF0000000000000 0 0 1 = true
    ∧ gives 0x29 0 0 0 0 = true
    ∧ statusOn 0x29 0x8000000000000000 0 0 = some 1
    ∧ statusOn 0x29 0x3FF8000000000000 0 0 = some 1
    ∧ statusOn 0x29 0x41F0000000000000 0 0 = some 1
    ∧ statusOn 0x29 0x41EFFFFFFFF00000 0 0 = some 1 := by decide

/-- A packed NaN is answered `OK` whatever the draw (R63). -/
theorem test_packed_nan_is_ok :
    statusOn 0x26 0x7FC00000 0 0 = some 0 ∧ statusOn 0x26 0x7F800001 0 0 = some 0
    ∧ statusOn 0x9424 0xFFC12345 0 0 = some 0 := by decide

/-- EXPLSB under the alternative `keep` (spec/95_test_vectors.md section 2.2). -/
theorem test_explsb_keep :
    expandLsb .keep (0xB0 : BitVec 32) = 0xBF ∧ expandLsb .keep (6 : BitVec 32) = 7
    ∧ expandLsb .keep (0 : BitVec 32) = 0xFFFFFFFF := by decide

/-- F32TOF16 under the alternative `PACK_TIE = even` (spec/95_test_vectors.md section 2.7). -/
theorem test_pack_tie_even :
    packPattern .even 1 1 5 10 0x3F801000 = 0x3C00 ∧ packPattern .even 1 1 5 10 0x33000000 = 0
    ∧ packPattern .even 1 1 5 10 0x33C00000 = 2 ∧ packPattern .even 1 1 5 10 0x477FF000 = 0x7C00 := by decide

/-- Program P4 of spec/95_test_vectors.md, its last three lines and the line it never issues. -/
def walkScript : List ScriptLine :=
  [⟨.tzcnt_32, [.literal 0x80]⟩, ⟨.clrlsb_32, [.literal 0x80]⟩, ⟨.tzcnt_32, [.resultOf 2]⟩,
   ⟨.popcnt_32, [.literal 0xB0]⟩]

theorem test_script_stops :
    (runScript State.reset [] walkScript).map Response.st = [0, 0, 1]
    ∧ ((runScript State.reset [] walkScript).take 2).map Response.r = [7, 0] := by decide

/-- A format that does not fit the command word is not sent as another; one that fits and is out of range is, and is illegal. -/
theorem test_script_format :
    runScript State.reset [] [⟨.fpack 2 4 10, [.literal 0x3F800000]⟩] = []
    ∧ runScript State.reset [] [⟨.funpack 1 18 10, [.literal 0]⟩] = []
    ∧ (runScript State.reset [] [⟨.fpack 1 9 10, [.literal 0x3F800000]⟩]).map Response.st = [2] := by decide

theorem test_assembler_name :
    assemblerName .bswap_16 = "BSWAP.16" ∧ assemblerName (.fpack 0 5 6) = "FPACK<0,5,6>" := by decide

/-- Reset drops a request in flight; with nothing presented the unit only idles. -/
theorem test_reset_and_idle :
    (match step { onPorts 8 0 0 with cmd := 0x209, host := [.reset] } with
      | .next t => !t.inFlight && !t.responding && t.host == []
      | .fault _ => false
      | .refused _ => false) = true
    ∧ (match step State.reset with
      | .next t => !t.inFlight && !t.responding
      | .fault _ => false
      | .refused _ => false) = true := by decide

/-! ## Witnesses: states and operands that meet the hypotheses of the statements -/

theorem witness_DecodeOfEncodeIsTheInstruction :
    (Instr.fpack 0 2 1).wf = true ∧ (Instr.funpack 1 8 23).wf = true ∧ Instr.bswap_8.wf = true := by decide

theorem witness_DecodedInstructionReencodes :
    decode 0x000BC424 = .ok (.fpack 1 8 23) ∧ decode 0x00000319 = .ok .clp2_64 := by decide

/-- Both words of the second clause are the same word, as it concludes; the free rows of the last are met with a format. -/
theorem witness_DecodingTotalAndUnambiguous :
    decode 0x00009425 = .ok (.funpack 1 2 1)
    ∧ opcodeRows.any (fun row => row.admits 0x00009425 && row.mask == 0xFFF003FF) = true
    ∧ formatLegal (fsOf 0x00009425) (feOf 0x00009425) (fmOf 0x00009425) = true := by decide

/-- Each clause of R26, at the edge of its range, and a legal word. -/
theorem witness_IllegalCommandsAnswerIllegal :
    IllegalCommand 0x00100210 ∧ IllegalCommand 0x0000002A ∧ ¬ IllegalCommand 0x00000101 ∧ IllegalCommand 0x00000102
    ∧ IllegalCommand 0x0000011A ∧ IllegalCommand 0x00000020 ∧ IllegalCommand 0x00000601
    ∧ IllegalCommand 0x00050C24 ∧ IllegalCommand 0x000C2C25 ∧ ¬ IllegalCommand 0x000BC424
    ∧ (presented 0x00100210 0 0 0).Presents ⟨0x00100210, 0, 0, 0⟩ []
    ∧ { presented 0 0 0 0 with host := [.request ⟨0, 0, 0, 0⟩, .request ⟨0x210, 1, 0, 0⟩] }.Presents
        ⟨0, 0, 0, 0⟩ [.request ⟨0x210, 1, 0, 0⟩]
    ∧ ∃ t, step (presented 0x210 1 0 0) = .next t := by
  unfold IllegalCommand State.Presents
  refine ⟨?_, ?_, ?_, ?_, ?_, ?_, ?_, ?_, ?_, ?_, ?_, ?_, _, rfl⟩ <;> decide

theorem witness_StepRunsTheDecodedInstruction :
    (onPorts 8 0 0).inFlight = true ∧ { onPorts 8 0 0 with cmd := 0x209 }.noReset = true
    ∧ decode { onPorts 8 0 0 with cmd := 0x209 }.cmd = .ok .tzcnt_32
    ∧ (presented 0x209 8 0 0).inFlight = false ∧ (presented 0x209 8 0 0).host = [.request ⟨0x209, 8, 0, 0⟩]
    ∧ decodeTableWord 32 0x209 = some .tzcnt_32 := by decide

theorem witness_EveryStepAnswers :
    (presented 0xFFFFFFFF 0 0 0).inFlight = false
    ∧ (presented 0xFFFFFFFF 0 0 0).host = [.request ⟨0xFFFFFFFF, 0, 0, 0⟩]
    ∧ (onPorts 0 0 0).inFlight = true ∧ HostInput.reset ∉ (onPorts 0 0 0).host
    ∧ (∃ t, step (presented 0x209 8 0 0) = .next t ∧ t.responding = true)
    ∧ State.reset.inFlight = false ∧ State.reset.host = [] :=
  ⟨rfl, rfl, rfl, by decide, ⟨_, rfl, rfl⟩, rfl, rfl⟩

/-- Two states with different ports, histories and futures, the same request and the same draw number; and one whose
request packs a NaN. -/
theorem witness_ResponseDependsOnTheRequestAlone :
    (presented 0x209 8 0 0).Presents ⟨0x209, 8, 0, 0⟩ []
    ∧ { onPorts 1 2 3 with inFlight := false, responding := true, r := 5, host := [.request ⟨0x209, 8, 0, 0⟩, .reset] }.Presents
        ⟨0x209, 8, 0, 0⟩ [.reset]
    ∧ (∃ t, step (presented 0x209 8 0 0) = .next t ∧ t.st = 0)
    ∧ Request.packsNaN ⟨0x209, 8, 0, 0⟩ = false ∧ Request.packsNaN ⟨0x26, 0x7FC00000, 0, 0⟩ = true
    ∧ (presented 0x209 8 0 0).draws = (onPorts 1 2 3).draws := by
  refine ⟨⟨rfl, rfl⟩, ⟨rfl, rfl⟩, ⟨_, rfl, by decide⟩, by decide, by decide, rfl⟩

theorem witness_RequestsAnsweredInOrderAsIfAlone :
    { presented 0 0 0 0 with host := [.request ⟨0, 0, 0, 0⟩, .request ⟨0x209, 8, 0, 0⟩, .reset] }.inFlight = false
    ∧ { presented 0 0 0 0 with host := [.request ⟨0, 0, 0, 0⟩, .request ⟨0x209, 8, 0, 0⟩, .reset] }.host
        = ([(⟨0, 0, 0, 0⟩ : Request)] ++ [(⟨0x209, 8, 0, 0⟩ : Request)]).map .request ++ [.reset] := by decide

/-- A state that is giving the response of POPCNT.32 0xFF and has another request coming. -/
def afterPopcnt : State :=
  { State.reset with
    host := [.request ⟨0x209, 8, 0, 0⟩], cmd := 0x210, a := 0xFF, responding := true, r := 8, st := 0, draws := 1 }

theorem witness_EveryStepKeepsTheInvariant : afterPopcnt.Inv ∧ ∃ t, step afterPopcnt = .next t ∧ t.responding = true :=
  ⟨⟨by decide, by decide, fun _ => by decide⟩, _, rfl, by decide⟩

theorem witness_ResetDropsTheRequestInFlight :
    { onPorts 8 0 0 with host := [.reset, .request ⟨0x209, 8, 0, 0⟩] }.host = .reset :: .request ⟨0x209, 8, 0, 0⟩ :: []
    ∧ { onPorts 8 0 0 with host := [.reset, .request ⟨0x209, 8, 0, 0⟩] }.inFlight = true := by decide

theorem witness_LaunchedRequestHeldUntilAnswered :
    { State.reset with host := [.launch ⟨0x209, 8, 0, 0⟩, .request ⟨0, 0, 0, 0⟩] }.inFlight = false
    ∧ { State.reset with host := [.launch ⟨0x209, 8, 0, 0⟩, .request ⟨0, 0, 0, 0⟩] }.host
        = .launch ⟨0x209, 8, 0, 0⟩ :: [.request ⟨0, 0, 0, 0⟩]
    ∧ [HostInput.request ⟨0, 0, 0, 0⟩].head? ≠ some .reset
    ∧ { State.reset with host := [.launch ⟨0x209, 8, 0, 0⟩, .reset] }.host = .launch ⟨0x209, 8, 0, 0⟩ :: .reset :: []
    ∧ (onPorts 8 0 0).inFlight = true ∧ (onPorts 8 0 0).noReset = true := by
  decide

theorem witness_ExecChangesOnlyTheResponse :
    (∃ t, exec .bext_32 (onPorts 0xABCD1234 8 0xC) = .next t) ∧ ∃ t, exec .tzcnt_64 (onPorts 0 0 0) = .next t :=
  ⟨⟨_, rfl⟩, _, rfl⟩

/-- A bit at the declared width on each port; two states that differ on the ports LSB does not name; an `OK` response. -/
theorem witness_OperandWidthLaw :
    OperandTooWide .clrlsb_32 0x100000000 0 0 ∧ OperandTooWide .intl2_32 0 0x10000 0
    ∧ OperandTooWide (.funpack 0 5 6) 1 0 0 ∧ OperandTooWide .fmake_d 0 0 0x10000000000000
    ∧ [(onPorts 6 1 2).a, (onPorts 6 1 2).b, (onPorts 6 1 2).c].take (operandWidths .lsb_32).length
        = [(onPorts 6 9 0xFFFFFFFFFFFFFFFF).a, (onPorts 6 9 0xFFFFFFFFFFFFFFFF).b, (onPorts 6 9 0xFFFFFFFFFFFFFFFF).c].take (operandWidths .lsb_32).length
    ∧ (∃ t, exec .lsb_32 (onPorts 6 1 2) = .next t ∧ t.st = 0)
    ∧ ∃ t, exec .lsb_32 (onPorts 6 9 0xFFFFFFFFFFFFFFFF) = .next t := by
  unfold OperandTooWide
  refine ⟨by decide, by decide, by decide, by decide, by decide, ⟨_, rfl, by decide⟩, _, rfl⟩

theorem witness_StatusIsByCommandThenOperands :
    (presented 0x10 0 0 0).Presents ⟨0x10, 0, 0, 0⟩ [] ∧ (presented 0x209 0 0 0).Presents ⟨0x209, 0, 0, 0⟩ []
    ∧ UndefCause .tzcnt_32 0 0 0 ∧ decode 0x209 = .ok .tzcnt_32 := by
  refine ⟨⟨rfl, rfl⟩, ⟨rfl, rfl⟩, .inr (.inl ⟨by decide, rfl⟩), by decide⟩

/-- The script of P4 stops before its last line, and its third line names the second. Operands that name no line: the zeroth,
and the line itself. -/
theorem witness_ScriptStopsAtFirstResponseNotOk :
    (∀ (p : Nat) (line : ScriptLine), walkScript[p]? = some line →
      formatFits line.instr = true
      ∧ ∀ k, ScriptOperand.resultOf k ∈ line.operands → 1 ≤ k ∧ k ≤ ([] : List Word).length + p)
    ∧ (runScript State.reset [] walkScript).length < walkScript.length
    ∧ walkScript[2]? = some ⟨.tzcnt_32, [.resultOf 2]⟩ ∧ (∃ x, (runScript State.reset [] walkScript)[2]? = some x)
    ∧ (ScriptOperand.resultOf 0 ∈ [ScriptOperand.resultOf 0] ∧ ([] : List Word).length < 1)
    ∧ ScriptLine.request [] ⟨.tzcnt_32, [.resultOf 1]⟩ = none ∧ formatFits (.fpack 1 18 10) = false := by
  refine ⟨?_, by decide, rfl, ⟨_, rfl⟩, by decide, by decide, by decide⟩
  intro p line h
  rcases p with _ | _ | _ | _ | p <;> simp [walkScript] at h <;> subst h <;> simp [formatFits]

/-! The one-operand operations: the largest operand of each width, a bit at the width, and operands at the edges of each
domain and just outside it. -/

theorem witness_BswapReversesByteLanes :
    (onPorts 0xFF 0 0).a = zext (0xFF : BitVec 8) ∧ (onPorts 0xFFFF 0 0).a = zext (0xFFFF : BitVec 16)
    ∧ (onPorts 0xFFFFFFFF 0 0).a = zext (0xFFFFFFFF : BitVec 32)
    ∧ (onPorts 0xFFFFFFFFFFFFFFFF 0 0).a = zext (0xFFFFFFFFFFFFFFFF : BitVec 64)
    ∧ fits (onPorts 0x100 0 0).a 8 = false ∧ fits (onPorts 0x10000 0 0).a 16 = false
    ∧ fits (onPorts 0x100000000 0 0).a 32 = false := by decide

theorem witness_Uint24ConversionsKeepTheByteLanes :
    (onPorts 0xFFFFFF 0 0).a = zext (0xFFFFFF : BitVec 32) ∧ (0xFFFFFF : BitVec 32).toNat < 2 ^ 24
    ∧ (onPorts 0x1000000 0 0).a = zext (0x1000000 : BitVec 32) ∧ ¬ (0x1000000 : BitVec 32).toNat < 2 ^ 24
    ∧ (onPorts 0xFFFFFF 0 0).a = zext (0xFFFFFF : BitVec 24)
    ∧ fits (onPorts 0x100000000 0 0).a 32 = false ∧ fits (onPorts 0x1000000 0 0).a 24 = false := by decide

theorem witness_ClrlsbClearsTheLowestSetBit :
    (onPorts 0x80000000 0 0).a = zext (0x80000000 : BitVec 32)
    ∧ (onPorts 0x8000000000000000 0 0).a = zext (0x8000000000000000 : BitVec 64)
    ∧ fits (onPorts 0x1000000B0 0 0).a 32 = false := by decide

theorem witness_ExplsbExpandsTheLowestSetBitDownward :
    (onPorts 0 0 0).a = zext (0 : BitVec 32) ∧ (onPorts 0x8000000000000000 0 0).a = zext (0x8000000000000000 : BitVec 64)
    ∧ fits (onPorts 0x100000000 0 0).a 32 = false ∧ (0x80000000 : BitVec 32).toNat = 2 ^ 31
    ∧ (0x8000000000000000 : BitVec 64).toNat = 2 ^ 63 := by decide

theorem witness_LsbIsolatesTheLowestSetBit :
    (onPorts 0xB0 0 0).a = zext (0xB0 : BitVec 32) ∧ (onPorts 0 0 0).a = zext (0 : BitVec 64)
    ∧ fits (onPorts 0x100000000 0 0).a 32 = false := by decide

theorem witness_ExphlsbExpandsTheLowestSetBitUpward :
    (onPorts 1 0 0).a = zext (1 : BitVec 32) ∧ (onPorts 0 0 0).a = zext (0 : BitVec 64)
    ∧ fits (onPorts 0x100000000 0 0).a 32 = false := by decide

theorem witness_ExpmsbExpandsTheHighestSetBitDownward :
    (onPorts 0x80000000 0 0).a = zext (0x80000000 : BitVec 32) ∧ (onPorts 0 0 0).a = zext (0 : BitVec 64)
    ∧ fits (onPorts 0x100000000 0 0).a 32 = false := by decide

theorem witness_MsbIsolatesTheHighestSetBit :
    (onPorts 0x80000000 0 0).a = zext (0x80000000 : BitVec 32) ∧ (0x80000000 : BitVec 32) ≠ 0
    ∧ (onPorts 1 0 0).a = zext (1 : BitVec 64) ∧ (1 : BitVec 64) ≠ 0
    ∧ (onPorts 0 0 0).a = zext (0 : BitVec 32) ∧ (onPorts 0 0 0).a = zext (0 : BitVec 64)
    ∧ fits (onPorts 0x100000000 0 0).a 32 = false := by decide

theorem zero_ne_two_pow (k : Nat) : 0 ≠ 2 ^ k := by have := Nat.two_pow_pos k; omega

theorem two_ne_ones (k : Nat) : 2 ≠ ones (k + 1) := by
  have := Nat.two_pow_pos k
  rw [ones, Nat.pow_succ]; omega

theorem three_ne_two_pow (k : Nat) : 3 ≠ 2 ^ k := by
  rcases k with _ | k
  · decide
  · rw [Nat.pow_succ]; omega

theorem witness_IdxbitIndexesTheSingleBit :
    ((onPorts 0x80000000 0 0).a = zext (0x80000000 : BitVec 32) ∧ ∃ k, (0x80000000 : BitVec 32).toNat = 2 ^ k)
    ∧ ((onPorts 0x8000000000000000 0 0).a = zext (0x8000000000000000 : BitVec 64)
      ∧ ∃ k, (0x8000000000000000 : BitVec 64).toNat = 2 ^ k)
    ∧ ((onPorts 3 0 0).a = zext (3 : BitVec 32) ∧ ¬ ∃ k, (3 : BitVec 32).toNat = 2 ^ k)
    ∧ ((onPorts 0 0 0).a = zext (0 : BitVec 64) ∧ ¬ ∃ k, (0 : BitVec 64).toNat = 2 ^ k)
    ∧ fits (onPorts 0x100000000 0 0).a 32 = false :=
  ⟨⟨rfl, 31, rfl⟩, ⟨rfl, 63, rfl⟩, ⟨rfl, fun ⟨k, h⟩ => three_ne_two_pow k h⟩,
    ⟨rfl, fun ⟨k, h⟩ => zero_ne_two_pow k h⟩, by decide⟩

theorem witness_IdxexpIndexesTheTopOfAnExpandedMask :
    ((onPorts 0xFFFFFFFF 0 0).a = zext (0xFFFFFFFF : BitVec 32) ∧ ∃ k, (0xFFFFFFFF : BitVec 32).toNat = ones (k + 1))
    ∧ ((onPorts 1 0 0).a = zext (1 : BitVec 64) ∧ ∃ k, (1 : BitVec 64).toNat = ones (k + 1))
    ∧ ((onPorts 2 0 0).a = zext (2 : BitVec 32) ∧ ¬ ∃ k, (2 : BitVec 32).toNat = ones (k + 1))
    ∧ ((onPorts 2 0 0).a = zext (2 : BitVec 64) ∧ ¬ ∃ k, (2 : BitVec 64).toNat = ones (k + 1))
    ∧ fits (onPorts 0x100000000 0 0).a 32 = false :=
  ⟨⟨rfl, 31, rfl⟩, ⟨rfl, 0, rfl⟩, ⟨rfl, fun ⟨k, h⟩ => two_ne_ones k h⟩, ⟨rfl, fun ⟨k, h⟩ => two_ne_ones k h⟩, by decide⟩

theorem witness_TzcntAndIdxlsbFindTheLowestSetBit :
    (onPorts 0x80000000 0 0).a = zext (0x80000000 : BitVec 32) ∧ (0x80000000 : BitVec 32) ≠ 0
    ∧ (onPorts 0x8000000000000000 0 0).a = zext (0x8000000000000000 : BitVec 64)
    ∧ (0x8000000000000000 : BitVec 64) ≠ 0 ∧ (onPorts 0 0 0).a = zext (0 : BitVec 32)
    ∧ (onPorts 0 0 0).a = zext (0 : BitVec 64) ∧ fits (onPorts 0x100000000 0 0).a 32 = false := by decide

theorem witness_LzcntCountsZerosAboveTheHighestSetBit :
    (onPorts 1 0 0).a = zext (1 : BitVec 32) ∧ (1 : BitVec 32) ≠ 0 ∧ (onPorts 1 0 0).a = zext (1 : BitVec 64)
    ∧ (1 : BitVec 64) ≠ 0 ∧ (onPorts 0 0 0).a = zext (0 : BitVec 32) ∧ (onPorts 0 0 0).a = zext (0 : BitVec 64)
    ∧ fits (onPorts 0x100000000 0 0).a 32 = false := by decide

theorem witness_IdxmsbAndLog2FindTheHighestSetBit :
    (onPorts 0xFFFFFFFF 0 0).a = zext (0xFFFFFFFF : BitVec 32) ∧ (0xFFFFFFFF : BitVec 32) ≠ 0
    ∧ (onPorts 1 0 0).a = zext (1 : BitVec 64) ∧ (1 : BitVec 64) ≠ 0 ∧ (onPorts 0 0 0).a = zext (0 : BitVec 32)
    ∧ (onPorts 0 0 0).a = zext (0 : BitVec 64) ∧ fits (onPorts 0x100000000 0 0).a 32 = false := by decide

theorem witness_BrevReversesTheBits :
    (onPorts 1 0 0).a = zext (1 : BitVec 32) ∧ (onPorts 0xFFFFFFFF 0 0).a = zext (0xFFFFFFFF : BitVec 64)
    ∧ fits (onPorts 0x100000000 0 0).a 32 = false := by decide

theorem witness_PopcntCountsTheSetBits :
    (onPorts 0xFFFFFFFF 0 0).a = zext (0xFFFFFFFF : BitVec 32) ∧ (onPorts 0 0 0).a = zext (0 : BitVec 64)
    ∧ fits (onPorts 0x1FFFFFFFF 0 0).a 32 = false := by decide

theorem witness_BextExtractsTheField :
    (onPorts 0xABCD1234 0x20 0).a = zext (0xABCD1234 : BitVec 32)
    ∧ (onPorts 0xABCD1234 0x20 0).b.toNat + (onPorts 0xABCD1234 0x20 0).c.toNat ≤ 32
    ∧ (onPorts 0xABCD1234 0 0x20).b.toNat + (onPorts 0xABCD1234 0 0x20).c.toNat ≤ 32
    ∧ 32 < (onPorts 0xABCD1234 8 0x19).b.toNat + (onPorts 0xABCD1234 8 0x19).c.toNat
    ∧ (onPorts 0xABCD1234 0 0x40).a = zext (0xABCD1234 : BitVec 64)
    ∧ (onPorts 0xABCD1234 0 0x40).b.toNat + (onPorts 0xABCD1234 0 0x40).c.toNat ≤ 64
    ∧ 64 < (onPorts 0 0xFFFFFFFFFFFFFFFF 1).b.toNat + (onPorts 0 0xFFFFFFFFFFFFFFFF 1).c.toNat
    ∧ fits (onPorts 0x100000000 0 0).a 32 = false := by decide

theorem witness_DeintlGathersTheEvenSlots :
    (onPorts 0xAAAAAAAA 0 0).a = zext (0xAAAAAAAA : BitVec 32)
    ∧ (onPorts 0xFFFFFFFFFFFFFFFF 0 0).a = zext (0xFFFFFFFFFFFFFFFF : BitVec 64)
    ∧ fits (onPorts 0x100000000 0 0).a 32 = false := by decide

theorem witness_Intl1ScattersIntoTheEvenSlots :
    (onPorts 0x8000 0 0).a = zext (0x8000 : BitVec 16) ∧ (onPorts 0x80000001 0 0).a = zext (0x80000001 : BitVec 32)
    ∧ fits (onPorts 0x10000 0 0).a 16 = false ∧ fits (onPorts 0x100000000 0 0).a 32 = false := by decide

theorem witness_Intl2InterleavesTwoHalves :
    (onPorts 0xFFFF 5 0).a = zext (0xFFFF : BitVec 16) ∧ (onPorts 0xFFFF 5 0).b = zext (5 : BitVec 16)
    ∧ (onPorts 3 0xFFFFFFFF 0).a = zext (3 : BitVec 32) ∧ (onPorts 3 0xFFFFFFFF 0).b = zext (0xFFFFFFFF : BitVec 32)
    ∧ fits (onPorts 0x10000 0 0).a 16 = false ∧ fits (onPorts 0 0x10000 0).b 16 = false
    ∧ fits (onPorts 0x100000000 0 0).a 32 = false ∧ fits (onPorts 0 0x100000000 0).b 32 = false := by decide

theorem witness_SelSelectsBitByBit :
    (onPorts 0xFFFF 1 2).a = zext (0xFFFF : BitVec 32) ∧ (onPorts 0xFFFF 1 2).b = zext (1 : BitVec 32)
    ∧ (onPorts 0xFFFF 1 2).c = zext (2 : BitVec 32) ∧ (onPorts 0xFFFF 1 2).a = zext (0xFFFF : BitVec 64)
    ∧ (onPorts 0xFFFF 1 2).b = zext (1 : BitVec 64) ∧ (onPorts 0xFFFF 1 2).c = zext (2 : BitVec 64)
    ∧ fits (onPorts 0x100000000 0 0).a 32 = false ∧ fits (onPorts 0 0x100000000 0).b 32 = false
    ∧ fits (onPorts 0 0 0x100000000).c 32 = false := by decide

theorem witness_HaszbFindsAZeroLane :
    (onPorts 0x01010101 0 0).a = zext (0x01010101 : BitVec 32) ∧ (onPorts 0x100 0 0).a = zext (0x100 : BitVec 64)
    ∧ fits (onPorts 0x100000000 0 0).a 32 = false := by decide

theorem witness_Ispow2IsTrueAtZeroAndPowersOfTwo :
    (onPorts 0 0 0).a = zext (0 : BitVec 32) ∧ (onPorts 6 0 0).a = zext (6 : BitVec 64)
    ∧ fits (onPorts 0x100000000 0 0).a 32 = false := by decide

theorem witness_Flp2RoundsDownToAPowerOfTwo :
    (onPorts 0xFFFFFFFF 0 0).a = zext (0xFFFFFFFF : BitVec 32) ∧ (0xFFFFFFFF : BitVec 32) ≠ 0
    ∧ (onPorts 1 0 0).a = zext (1 : BitVec 64) ∧ (1 : BitVec 64) ≠ 0 ∧ (onPorts 0 0 0).a = zext (0 : BitVec 32)
    ∧ (onPorts 0 0 0).a = zext (0 : BitVec 64) ∧ fits (onPorts 0x100000000 0 0).a 32 = false := by decide

theorem witness_Clp2RoundsUpToAPowerOfTwo :
    ((onPorts 0x80000000 0 0).a = zext (0x80000000 : BitVec 32)
      ∧ (0x80000000 : BitVec 32) ≠ 0 ∧ (0x80000000 : BitVec 32).toNat ≤ 2 ^ 31)
    ∧ ((onPorts 0x80000001 0 0).a = zext (0x80000001 : BitVec 32)
      ∧ ¬ ((0x80000001 : BitVec 32) ≠ 0 ∧ (0x80000001 : BitVec 32).toNat ≤ 2 ^ 31))
    ∧ ((onPorts 0x8000000000000000 0 0).a = zext (0x8000000000000000 : BitVec 64)
      ∧ (0x8000000000000000 : BitVec 64) ≠ 0 ∧ (0x8000000000000000 : BitVec 64).toNat ≤ 2 ^ 63)
    ∧ ((onPorts 0 0 0).a = zext (0 : BitVec 64) ∧ ¬ ((0 : BitVec 64) ≠ 0 ∧ (0 : BitVec 64).toNat ≤ 2 ^ 63))
    ∧ fits (onPorts 0x100000000 0 0).a 32 = false := by decide

theorem witness_FloatFieldsAreSlicesOfThePattern :
    (onPorts 0xFE01 0 0).a = zext (0xFE01 : BitVec 16) ∧ (onPorts 0xC0490FDB 0 0).a = zext (0xC0490FDB : BitVec 32)
    ∧ (onPorts 0xFFF0000000000000 0 0).a = zext (0xFFF0000000000000 : BitVec 64)
    ∧ fits (onPorts 0x10000 0 0).a 16 = false ∧ fits (onPorts 0x100000000 0 0).a 32 = false := by decide

theorem witness_FmakeBuildsThePatternOfATriple :
    ((onPorts 1 0x1F 0x3FF).a = zext (1 : BitVec 1) ∧ (onPorts 1 0x1F 0x3FF).b = zext (0x1F : BitVec 5)
      ∧ (onPorts 1 0x1F 0x3FF).c = zext (0x3FF : BitVec 10))
    ∧ ((onPorts 1 0x80 0x490FDB).a = zext (1 : BitVec 1) ∧ (onPorts 1 0x80 0x490FDB).b = zext (0x80 : BitVec 8)
      ∧ (onPorts 1 0x80 0x490FDB).c = zext (0x490FDB : BitVec 23))
    ∧ ((onPorts 0 0x433 0x8000000000000).a = zext (0 : BitVec 1)
      ∧ (onPorts 0 0x433 0x8000000000000).b = zext (0x433 : BitVec 11)
      ∧ (onPorts 0 0x433 0x8000000000000).c = zext (0x8000000000000 : BitVec 52))
    ∧ fits (onPorts 2 0xF 0).a 1 = false ∧ fits (onPorts 0 0x20 0).b 5 = false ∧ fits (onPorts 0 0 0x400).c 10 = false
    ∧ fits (onPorts 0 0x100 0).b 8 = false ∧ fits (onPorts 0 0 0x800000).c 23 = false
    ∧ fits (onPorts 0 0x800 0).b 11 = false ∧ fits (onPorts 0 0 0x10000000000000).c 52 = false
    ∧ 0xFE01 < 2 ^ (1 + 5 + 10) ∧ 1 < 2 ∧ 31 < 2 ^ 5 ∧ 1023 < 2 ^ 10 := by decide

/-- The smallest and the largest NaN mantissa, at the smallest and the largest format. -/
theorem witness_PackedNaNHasOnesExponentAndNonzeroMantissa :
    (onPorts 0x7F800001 0 0).a = zext (0x7F800001 : BitVec 32) ∧ (0x7F800001 : BitVec 32).toNat / 2 ^ 23 % 2 ^ 8 = 255
    ∧ (0x7F800001 : BitVec 32).toNat % 2 ^ 23 ≠ 0 ∧ (onPorts 0xFFFFFFFF 0 0).a = zext (0xFFFFFFFF : BitVec 32)
    ∧ (0xFFFFFFFF : BitVec 32).toNat / 2 ^ 23 % 2 ^ 8 = 255 ∧ (0xFFFFFFFF : BitVec 32).toNat % 2 ^ 23 ≠ 0
    ∧ formatLegal 0 2 1 = true ∧ formatLegal 1 8 23 = true := by decide

theorem witness_RoundingIntegerFormMatchesTheExactRationals :
    formatLegal 0 2 1 = true ∧ formatLegal 0 8 23 = true ∧ 254 < 255 ∧ 0x7FFFFF < 2 ^ 23 := by decide

/-- A finite Float, an infinity and a NaN; a wide operand; formats just outside the range. -/
theorem witness_FpackNarrowsEveryFloat :
    (onPorts 0x7F7FFFFF 0 0).a = zext (0x7F7FFFFF : BitVec 32)
    ∧ (0x7F7FFFFF : BitVec 32).toNat / 2 ^ 23 % 2 ^ 8 ≠ 255
    ∧ (onPorts 0xFF800000 0 0).a = zext (0xFF800000 : BitVec 32)
    ∧ (0xFF800000 : BitVec 32).toNat / 2 ^ 23 % 2 ^ 8 = 255 ∧ (0xFF800000 : BitVec 32).toNat % 2 ^ 23 = 0
    ∧ (onPorts 0x7FC00000 0 0).a = zext (0x7FC00000 : BitVec 32)
    ∧ (0x7FC00000 : BitVec 32).toNat / 2 ^ 23 % 2 ^ 8 = 255 ∧ (0x7FC00000 : BitVec 32).toNat % 2 ^ 23 ≠ 0
    ∧ formatLegal 1 2 23 = true ∧ fits (onPorts 0x100000000 0 0).a 32 = false
    ∧ (presented 0x000C2C24 0 0 0).host = [.request ⟨0x000C2C24, 0, 0, 0⟩]
    ∧ opcOf 0x000C2C24 = 0x24 ∧ feOf 0x000C2C24 = 5 ∧ 23 < fmOf 0x000C2C24 := by decide

/-- The largest denormal, an infinity and a NaN of `<0,5,6>`; a field out of range on each port. -/
theorem witness_FunpackWidensExactly :
    formatLegal 0 5 6 = true
    ∧ ((onPorts 0 0 0x3F).a.toNat < 2 ^ 0 ∧ (onPorts 0 0 0x3F).b.toNat < 2 ^ 5 ∧ (onPorts 0 0 0x3F).c.toNat < 2 ^ 6
      ∧ ¬ ((onPorts 0 0 0x3F).b.toNat = ones 5 ∧ (onPorts 0 0 0x3F).c.toNat ≠ 0))
    ∧ ((onPorts 0 0x1F 1).a.toNat < 2 ^ 0 ∧ (onPorts 0 0x1F 1).b.toNat < 2 ^ 5 ∧ (onPorts 0 0x1F 1).c.toNat < 2 ^ 6
      ∧ (onPorts 0 0x1F 1).b.toNat = ones 5 ∧ (onPorts 0 0x1F 1).c.toNat ≠ 0)
    ∧ 2 ^ 0 ≤ (onPorts 1 0xF 0).a.toNat ∧ 2 ^ 5 ≤ (onPorts 0 0x20 0).b.toNat ∧ 2 ^ 6 ≤ (onPorts 0 0 0x40).c.toNat
    ∧ (presented 0x00050C25 0 0 0).host = [.request ⟨0x00050C25, 0, 0, 0⟩]
    ∧ opcOf 0x00050C25 = 0x25 ∧ feOf 0x00050C25 < 2 := by decide

theorem witness_F32tof16IsFpackToHalf :
    (onPorts 0x7FC00000 0 0).a = zext (0x7FC00000 : BitVec 32) ∧ fits (onPorts 0x100000000 0 0).a 32 = false := by decide

/-- The smallest denormal and a NaN of Half, and the fields of the second as FUNPACK's operands. -/
theorem witness_F16tof32WidensExactly :
    (onPorts 1 0 0).a = zext (1 : BitVec 16)
    ∧ ¬ ((1 : BitVec 16).toNat / 2 ^ 10 % 2 ^ 5 = 31 ∧ (1 : BitVec 16).toNat % 2 ^ 10 ≠ 0)
    ∧ (onPorts 0xFE09 0 0).a = zext (0xFE09 : BitVec 16) ∧ (0xFE09 : BitVec 16).toNat / 2 ^ 10 % 2 ^ 5 = 31
    ∧ (0xFE09 : BitVec 16).toNat % 2 ^ 10 ≠ 0 ∧ (onPorts 1 0x1F 0x209).a = word ((0xFE09 : BitVec 16).toNat / 2 ^ 15)
    ∧ (onPorts 1 0x1F 0x209).b = word ((0xFE09 : BitVec 16).toNat / 2 ^ 10 % 2 ^ 5)
    ∧ (onPorts 1 0x1F 0x209).c = word ((0xFE09 : BitVec 16).toNat % 2 ^ 10)
    ∧ fits (onPorts 0x10000 0 0).a 16 = false := by decide

theorem witness_U32tof64IsExact :
    (onPorts 0xFFFFFFFF 0 0).a = zext (0xFFFFFFFF : BitVec 32) ∧ (onPorts 0 0 0).a = zext (0 : BitVec 32)
    ∧ fits (onPorts 0x100000000 0 0).a 32 = false := by decide

theorem witness_IntegerDoubleRoundTrip :
    (onPorts 0 0 0).a = zext (0 : BitVec 32) ∧ (onPorts 0xFFFFFFFF 0 0).a = zext (0xFFFFFFFF : BitVec 32)
    ∧ exec .u32tof64 (onPorts 0xFFFFFFFF 0 0)
        = .next ((onPorts 0xFFFFFFFF 0 0).answerOk (onPorts 0x41EFFFFFFFE00000 0 0).a) :=
  ⟨rfl, rfl, rfl⟩

/-- The Doubles 0 and `2^32 - 1`, and -0. -/
theorem witness_F64tou32IsExactOnIntegerDoubles :
    HoldsU32 (onPorts 0 0 0).a ∧ HoldsU32 (onPorts 0x41EFFFFFFFE00000 0 0).a
    ∧ ¬ HoldsU32 (onPorts 0x8000000000000000 0 0).a := by
  refine ⟨⟨by decide, 0, by decide, ?_⟩, ⟨by decide, 0xFFFFFFFF, by decide, ?_⟩, fun h => ?_⟩
  · show patternValue doubleFormat 0 = _
    simp [patternValue, fieldsValue, doubleFormat, expField, mantField, signField, magnitude, ones]
  · show patternValue doubleFormat 0x41EFFFFFFFE00000 = _
    rw [show patternValue doubleFormat 0x41EFFFFFFFE00000 = fieldsValue 11 52 0 1054 0xFFFFFFFE00000 from rfl]
    norm_num [fieldsValue, magnitude, ones, bias]
  · exact absurd h.1 (by decide)

theorem witness_PackOfUnpackIsTheTriple :
    formatLegal 1 2 1 = true ∧ (onPorts 1 2 1).a.toNat < 2 ^ 1 ∧ (onPorts 1 2 1).b.toNat < 2 ^ 2
    ∧ (onPorts 1 2 1).c.toNat < 2 ^ 1 ∧ ¬ ((onPorts 1 2 1).b.toNat = ones 2 ∧ (onPorts 1 2 1).c.toNat ≠ 0)
    ∧ (onPorts 0x3FF 0 0).a = zext (0x3FF : BitVec 16)
    ∧ ¬ ((0x3FF : BitVec 16).toNat / 2 ^ 10 % 2 ^ 5 = 31 ∧ (0x3FF : BitVec 16).toNat % 2 ^ 10 ≠ 0) := by decide

/-- -2.0 as a Float and as a Half. -/
theorem witness_UnpackOfPackIsTheFloatWhenExact :
    (onPorts 0xC0000000 0 0).a = zext (0xC0000000 : BitVec 32)
    ∧ patternValue halfFormat (0xC000 : BitVec 16).toNat ≠ .nan
    ∧ patternValue floatFormat (0xC0000000 : BitVec 32).toNat = patternValue halfFormat (0xC000 : BitVec 16).toNat
    ∧ (0xC0000000 : BitVec 32).toNat / 2 ^ 31 = (0xC000 : BitVec 16).toNat / 2 ^ 15 := by
  have half : patternValue halfFormat (0xC000 : BitVec 16).toNat = .finite (-2) := by
    rw [show patternValue halfFormat (0xC000 : BitVec 16).toNat = fieldsValue 5 10 1 16 0 from rfl]
    norm_num [fieldsValue, magnitude, ones, bias]
  have float : patternValue floatFormat (0xC0000000 : BitVec 32).toNat = .finite (-2) := by
    rw [show patternValue floatFormat (0xC0000000 : BitVec 32).toNat = fieldsValue 8 23 1 128 0 from rfl]
    norm_num [fieldsValue, magnitude, ones, bias]
  rw [half, float]
  refine ⟨by decide, by simp, rfl, by decide⟩

theorem witness_DeBruijnLookupsAgreeOnDefinedInputs :
    (0x80000000 : BitVec 32) ≠ 0 ∧ (0x8000000000000000 : BitVec 64) ≠ 0 ∧ 31 < 32 ∧ 63 < 64 := by decide

theorem witness_IdleUnitGivesNoResponse :
    (onPorts 8 0 0 |>.applyReset []).inFlight = false ∧ (onPorts 8 0 0 |>.applyReset []).host = []
    ∧ { onPorts 8 0 0 with host := [.reset] }.host = [.reset]
    ∧ { onPorts 8 0 0 with host := [.reset] }.inFlight = true := by decide

/-- One state with a request in flight and one with nothing, the same host and the same draw number. -/
theorem witness_DroppedRequestLeavesNoTrace :
    { onPorts 8 0 0 with host := [.reset, .request ⟨0x210, 1, 0, 0⟩] }.host = .reset :: [.request ⟨0x210, 1, 0, 0⟩]
    ∧ { State.reset with host := [.reset, .request ⟨0x210, 1, 0, 0⟩] }.host = .reset :: [.request ⟨0x210, 1, 0, 0⟩]
    ∧ (onPorts 8 0 0).inFlight = true ∧ (onPorts 8 0 0).draws = State.reset.draws := by decide

theorem witness_PackOutsideTheFormatRangeIsIllegal :
    formatLegal 2 5 6 = false ∧ formatLegal 1 9 23 = false ∧ formatLegal 1 2 24 = false := by decide

end Sys2Proof.Tests
end

/-! ## Laws of the step and of runs -/
section

namespace Sys2Proof.Machine

section
variable {s t : State} {q : Request} {rest : List HostInput}

/-! ### One equation per kind of step -/

theorem step_of_reset (h : s.host = .reset :: rest) : step s = .next (s.applyReset rest) := by
  simp [step, transaction, h]

theorem step_of_presents (h : s.Presents q rest) : step s = serve (s.accept q rest) := by
  obtain ⟨hidle, hhost⟩ := h
  simp [step, transaction, hhost, hidle]

theorem step_of_launch (hidle : s.inFlight = false) (h : s.host = .launch q :: rest) :
    step s = .next (s.accept q rest).quiet := by
  simp [step, transaction, h, hidle]

theorem step_of_idle (hidle : s.inFlight = false) (h : s.host = []) : step s = .next s.quiet := by
  simp [step, transaction, h, hidle]

/-- A request in flight is answered whatever the host is to do next, short of a reset. -/
theorem step_of_inFlight (hf : s.inFlight = true) (h : s.noReset = true) : step s = serve s := by
  cases hh : s.host with
  | nil => simp [step, transaction, hh, hf]
  | cons x xs => cases x <;> simp_all [step, transaction, State.noReset]

theorem State.noReset_of_forall_ne (h : ∀ rest, s.host ≠ .reset :: rest) : s.noReset = true := by
  cases hh : s.host with
  | nil => simp [State.noReset, hh]
  | cons x xs =>
    have hx : x ≠ .reset := fun hx => h xs (by rw [hh, hx])
    simp [State.noReset, hh, hx]

theorem step_next_unique {u : State} (h : step s = .next t) (h' : step s = .next u) : t = u :=
  Host.Outcome.next.inj (h.symm.trans h')

/-- No step faults or is refused (R4). -/
theorem step_eq_next (s : State) : ∃ t, step s = .next t := by
  have served (u : State) : ∃ t, serve u = .next t :=
    let ⟨r, st, h⟩ := serve_responds u
    ⟨u.respond r st, h⟩
  obtain ⟨rest, -, h⟩ | ⟨-, -, h⟩ | ⟨q, rest, -, -, h⟩ | ⟨q, rest, -, -, h⟩ | ⟨-, -, h⟩ := step_cases s
  · exact ⟨_, h⟩
  · exact h ▸ served s
  · exact h ▸ served _
  · exact ⟨_, h⟩
  · exact ⟨_, h⟩

end

/-! ### Inductions over a run -/

/-- What every step keeps, every run keeps. -/
theorem core_run_keeps {P : State → Prop} (keeps : ∀ s, P s → ∃ t, step s = .next t ∧ P t) (k : Nat) :
    ∀ s, P s → ∃ t, core.run k s = .next t ∧ P t := by
  induction k with
  | zero => exact fun s hs => ⟨s, rfl, hs⟩
  | succ k ih =>
    intro s hs
    obtain ⟨t, hst, ht⟩ := keeps s hs
    rw [core_run_succ k hst]
    exact ih t ht

/-- A relation between two states that the steps of both keep is kept by runs of equal length. -/
theorem core_run_keeps_both {R : State → State → Prop}
    (keeps : ∀ s s', R s s' → ∃ t t', step s = .next t ∧ step s' = .next t' ∧ R t t') (k : Nat) :
    ∀ s s', R s s' → ∃ t t', core.run k s = .next t ∧ core.run k s' = .next t' ∧ R t t' := by
  induction k with
  | zero => exact fun s s' hs => ⟨s, s', rfl, rfl, hs⟩
  | succ k ih =>
    intro s s' hs
    obtain ⟨t, t', hst, hst', ht⟩ := keeps s s' hs
    rw [core_run_succ k hst, core_run_succ k hst']
    exact ih t t' ht

end Sys2Proof.Machine
end

/-! ## What a dropped request leaves behind: O58 -/
section

namespace Sys2Proof.Machine

/-- Nothing the host can see from now on tells the two states apart: the request in flight counts only while there is one,
and the output ports only while a response is being given (R9, R15). The draw numbers are equal too, so that free values
of the two are the same. -/
structure State.Alike (s s' : State) : Prop where
  host : s.host = s'.host
  inFlight : s.inFlight = s'.inFlight
  responding : s.responding = s'.responding
  draws : s.draws = s'.draws
  request : s.inFlight = true → s.cmd = s'.cmd ∧ s.a = s'.a ∧ s.b = s'.b ∧ s.c = s'.c
  response : s.responding = true → s.response = s'.response

section
variable {s s' : State}

theorem State.Alike.applyReset (rest : List HostInput) (hd : s.draws = s'.draws) :
    (s.applyReset rest).Alike (s'.applyReset rest) where
  host := rfl
  inFlight := rfl
  responding := rfl
  draws := congrArg (· + 1) hd
  request h := nomatch h
  response h := nomatch h

theorem State.Alike.quiet (h : s.Alike s') : s.quiet.Alike s'.quiet where
  host := h.host
  inFlight := h.inFlight
  responding := rfl
  draws := congrArg (· + 1) h.draws
  request := h.request
  response h := nomatch h

/-- Accepting the same request makes whatever the ports held before irrelevant. -/
theorem State.Alike.accept (q : Request) (rest : List HostInput) (hd : s.draws = s'.draws) :
    (s.accept q rest).Alike (s'.accept q rest) where
  host := rfl
  inFlight := rfl
  responding := rfl
  draws := hd
  request _ := ⟨rfl, rfl, rfl, rfl⟩
  response h := nomatch h

theorem State.Alike.respond (h : s.Alike s') (r : Word) (st : Status) : (s.respond r st).Alike (s'.respond r st) where
  host := h.host
  inFlight := rfl
  responding := rfl
  draws := congrArg (· + 1) h.draws
  request h := nomatch h
  response _ := rfl

/-- A request in flight in both is answered alike. -/
theorem State.Alike.serve (h : s.Alike s') (hf : s.inFlight = true) :
    ∃ t t', Machine.serve s = .next t ∧ Machine.serve s' = .next t' ∧ t.Alike t' := by
  obtain ⟨hcmd, ha, hb, hc⟩ := h.request hf
  obtain ⟨r, st, hs, hs'⟩ := serve_responds_alike hcmd ha hb hc h.draws
  exact ⟨_, _, hs, hs', h.respond r st⟩

/-- States that look alike still do after a step of each. -/
theorem State.Alike.step (h : s.Alike s') :
    ∃ t t', Machine.step s = .next t ∧ Machine.step s' = .next t' ∧ t.Alike t' := by
  obtain ⟨rest, hh, hs⟩ | ⟨hf, hh, hs⟩ | ⟨q, rest, hf, hh, hs⟩ | ⟨q, rest, hf, hh, hs⟩ | ⟨hf, hh, hs⟩ := step_cases s
  · exact ⟨_, _, hs, step_of_reset (h.host ▸ hh), .applyReset rest h.draws⟩
  · rw [hs, step_of_inFlight (h.inFlight ▸ hf) (State.noReset_of_forall_ne (h.host ▸ hh))]
    exact h.serve hf
  · rw [hs, step_of_presents ⟨h.inFlight ▸ hf, h.host ▸ hh⟩]
    exact (State.Alike.accept q rest h.draws).serve rfl
  · exact ⟨_, _, hs, step_of_launch (h.inFlight ▸ hf) (h.host ▸ hh), (State.Alike.accept q rest h.draws).quiet⟩
  · exact ⟨_, _, hs, step_of_idle (h.inFlight ▸ hf) (h.host ▸ hh), h.quiet⟩

end

/-- Settles O58: reset makes the two states alike, and every step keeps them so. -/
theorem droppedRequestLeavesNoTrace : Obligations.DroppedRequestLeavesNoTrace := by
  intro s s' rest k hs hs' hd
  rw [core_run_succ k (step_of_reset hs), core_run_succ k (step_of_reset hs')]
  obtain ⟨t, t', ht, ht', h⟩ :=
    core_run_keeps_both (fun _ _ h => h.step) k _ _ (State.Alike.applyReset rest hd)
  refine ⟨t, t', ht, ht', h.host, h.inFlight, h.responding, fun hr => ?_⟩
  obtain ⟨hR, hST⟩ := Response.mk.inj (h.response hr)
  exact ⟨hST, fun _ => hR⟩

end Sys2Proof.Machine
end

/-! ## Every request is answered, and an idle unit gives no response: O7, O57 -/
section

namespace Sys2Proof.Machine

section
variable {s t : State} {q : Request} {rest : List HostInput}

/-- A request presented to an idle unit is answered in the step that accepts it. -/
theorem step_of_presents_responds (h : s.Presents q rest) :
    ∃ r st, step s = .next ((s.accept q rest).respond r st) :=
  step_of_presents h ▸ serve_responds _

/-- A request in flight is answered by a step in which reset is not applied. -/
theorem step_of_inFlight_responds (hf : s.inFlight = true) (h : s.noReset = true) :
    ∃ r st, step s = .next (s.respond r st) :=
  step_of_inFlight hf h ▸ serve_responds s

/-- A step gives a response only to a request: one in flight that reset does not drop, or one presented. -/
theorem response_answers_a_request (hs : step s = .next t) (hr : t.responding = true) :
    t.inFlight = false ∧ ((s.inFlight = true ∧ s.noReset = true) ∨ ∃ q rest, s.Presents q rest) := by
  obtain ⟨rest, -, h⟩ | ⟨hf, hh, -⟩ | ⟨q, rest, hf, hh, -⟩ | ⟨q, rest, -, -, h⟩ | ⟨-, -, h⟩ := step_cases s
  · cases step_next_unique hs h; cases hr
  · have hn := State.noReset_of_forall_ne hh
    obtain ⟨r, st, h⟩ := step_of_inFlight_responds hf hn
    cases step_next_unique hs h
    exact ⟨rfl, .inl ⟨hf, hn⟩⟩
  · obtain ⟨r, st, h⟩ := step_of_presents_responds ⟨hf, hh⟩
    cases step_next_unique hs h
    exact ⟨rfl, .inr ⟨q, rest, hf, hh⟩⟩
  · cases step_next_unique hs h; cases hr
  · cases step_next_unique hs h; cases hr

end

/-- Settles O7: by the five kinds of step, and since serving always responds with one of the three statuses. -/
theorem everyStepAnswers : Obligations.EveryStepAnswers := by
  refine ⟨step_eq_next, ?presented, ?inFlight, fun s t => response_answers_a_request, ?idle⟩
  case presented =>
    intro s q rest h
    obtain ⟨r, st, hs⟩ := step_of_presents_responds h
    exact ⟨_, hs, rfl, rfl, rfl, st.code_ne_three⟩
  case inFlight =>
    intro s hf hreset
    have hn : s.noReset = true :=
      State.noReset_of_forall_ne fun rest hh => hreset (hh ▸ List.mem_cons_self)
    obtain ⟨r, st, hs⟩ := step_of_inFlight_responds hf hn
    exact ⟨0, _, core_run_succ 0 hs, rfl, rfl, rfl, rfl, rfl, rfl, st.code_ne_three⟩
  case idle =>
    intro s hf hh
    exact ⟨_, step_of_idle hf hh, rfl, hf, hh⟩

/-- The unit is idle with nothing presented, gives no response, and the sampled ports hold the values they hold in `s`. -/
structure State.QuietSince (s t : State) : Prop where
  responding : t.responding = false
  inFlight : t.inFlight = false
  host : t.host = []
  cmd : t.cmd = s.cmd
  a : t.a = s.a
  b : t.b = s.b
  c : t.c = s.c

theorem State.QuietSince.step {s t : State} (h : s.QuietSince t) :
    ∃ u, Machine.step t = .next u ∧ s.QuietSince u :=
  ⟨_, step_of_idle h.inFlight h.host, { h with responding := rfl }⟩

/-- Once a step has left the unit quiet, it stays quiet. -/
theorem core_run_quietSince {s t : State} (hs : step s = .next t) (ht : s.QuietSince t) (k : Nat) :
    ∃ u, core.run (k + 1) s = .next u ∧ s.QuietSince u := by
  rw [core_run_succ k hs]
  exact core_run_keeps (fun _ h => h.step) k t ht

/-- Settles O57: the first step, idle or reset, leaves the unit quiet. -/
theorem idleUnitGivesNoResponse : Obligations.IdleUnitGivesNoResponse := by
  constructor
  · intro s k hf hh
    obtain ⟨u, hu, h⟩ := core_run_quietSince (step_of_idle hf hh) ⟨rfl, hf, hh, rfl, rfl, rfl, rfl⟩ k
    exact ⟨u, hu, h.responding, h.inFlight, h.host, h.cmd, h.a, h.b, h.c⟩
  · intro s k hh
    obtain ⟨u, hu, h⟩ := core_run_quietSince (step_of_reset hh) ⟨rfl, rfl, rfl, rfl, rfl, rfl, rfl⟩ k
    exact ⟨u, hu, h.responding, h.inFlight, h.host, h.cmd, h.a, h.b, h.c⟩

end Sys2Proof.Machine
end

/-! ## What an instruction answers, as a function of its operands and its draw -/
section

namespace Sys2Proof.Machine

/-- What a well-formed instruction answers on the operands `a`, `b`, `c` at draw number `draw`: the arms of `exec`, with the
state they read made explicit. Only a packed NaN reads the draw. -/
def operate (i : Instr) (draw : Nat) (a b c : Word) : Result :=
  match i with
  | .bswap_8 => bswapResult 8 a
  | .bswap_16 => bswapResult 16 a
  | .bswap_32 => bswapResult 32 a
  | .bswap_64 => bswapResult 64 a
  | .clrlsb_32 => clrlsbResult 32 a
  | .clrlsb_64 => clrlsbResult 64 a
  | .explsb_32 => explsbResult 32 a
  | .explsb_64 => explsbResult 64 a
  | .lsb_32 => lsbResult 32 a
  | .lsb_64 => lsbResult 64 a
  | .exphlsb_32 => exphlsbResult 32 a
  | .exphlsb_64 => exphlsbResult 64 a
  | .expmsb_32 => expmsbResult 32 a
  | .expmsb_64 => expmsbResult 64 a
  | .idxbit_32 => idxbitResult 32 a
  | .idxbit_64 => idxbitResult 64 a
  | .idxexp_32 => idxexpResult 32 a
  | .idxexp_64 => idxexpResult 64 a
  | .tzcnt_32 | .idxlsb_32 => lowestIndexResult 32 a
  | .tzcnt_64 | .idxlsb_64 => lowestIndexResult 64 a
  | .lzcnt_32 => lzcntResult 32 a
  | .lzcnt_64 => lzcntResult 64 a
  | .idxmsb_32 | .log2_32 => highestIndexResult 32 a
  | .idxmsb_64 | .log2_64 => highestIndexResult 64 a
  | .msb_32 => msbResult 32 a
  | .msb_64 => msbResult 64 a
  | .brev_32 => brevResult 32 a
  | .brev_64 => brevResult 64 a
  | .popcnt_32 => popcntResult 32 a
  | .popcnt_64 => popcntResult 64 a
  | .bext_32 => bextResult 32 a b c
  | .bext_64 => bextResult 64 a b c
  | .deintl_32 => deintlResult 32 a
  | .deintl_64 => deintlResult 64 a
  | .intl1_32 => intl1Result 32 a
  | .intl1_64 => intl1Result 64 a
  | .intl2_32 => intl2Result 32 a b
  | .intl2_64 => intl2Result 64 a b
  | .sel_32 => selResult 32 a b c
  | .sel_64 => selResult 64 a b c
  | .haszb_32 => haszbResult 32 a
  | .haszb_64 => haszbResult 64 a
  | .ispow2_32 => ispow2Result 32 a
  | .ispow2_64 => ispow2Result 64 a
  | .flp2_32 => flp2Result 32 a
  | .flp2_64 => flp2Result 64 a
  | .clp2_32 => clp2Result 32 a
  | .clp2_64 => clp2Result 64 a
  | .u32tou24 => u32tou24Result a
  | .u24tou32 => u24tou32Result a
  | .fsign_h => fsignResult halfFormat a
  | .fsign_f => fsignResult floatFormat a
  | .fsign_d => fsignResult doubleFormat a
  | .fexp_h => fexpResult halfFormat a
  | .fexp_f => fexpResult floatFormat a
  | .fexp_d => fexpResult doubleFormat a
  | .fmant_h => fmantResult halfFormat a
  | .fmant_f => fmantResult floatFormat a
  | .fmant_d => fmantResult doubleFormat a
  | .fmake_h => fmakeResult halfFormat a b c
  | .fmake_f => fmakeResult floatFormat a b c
  | .fmake_d => fmakeResult doubleFormat a b c
  | .fpack fs fe fm => packResult draw fs fe fm a
  | .funpack fs fe fm => unpackResult fs fe fm a b c
  | .f32tof16 => packResult draw 1 5 10 a
  | .f16tof32 => f16tof32Result a
  | .u32tof64 => u32tof64Result a
  | .f64tou32 => f64tou32Result a

/-- `exec` answers with `operate` on the sampled ports, and reports an ill-formed instruction as illegal. -/
theorem exec_eq (i : Instr) (s : State) :
    exec i s = .next (if i.wf then s.answer (operate i s.draws s.a s.b s.c) else s.raise .illegal) := by
  cases i <;> rfl

theorem exec_of_wf {i : Instr} (hi : i.wf = true) (s : State) :
    exec i s = .next (s.answer (operate i s.draws s.a s.b s.c)) := by
  rw [exec_eq, if_pos hi]

theorem exec_of_not_wf {i : Instr} (hi : i.wf = false) (s : State) : exec i s = .next (s.raise .illegal) := by
  rw [exec_eq, hi]; rfl

/-- The status is 0 exactly when the operation answered a result, which is then on port `R`. -/
theorem State.answer_st_eq_zero {s : State} {res : Result} : (s.answer res).st = 0 ↔ res = .ok (s.answer res).r := by
  cases res <;> simp

/-- An `OK` result is the operation's, whatever the state it is answered in. -/
theorem State.answer_r_eq {s s' : State} {res res' : Result} (hres : res = res') (h : (s.answer res).st = 0) :
    (s.answer res).r = (s'.answer res').r := by
  subst hres
  rw [State.answer_st_eq_zero] at h
  rw [h]; rfl

/-! ### Only the ports an instruction names are read -/

/-- Two sets of operands that agree on the ports the instruction names get the same answer (R6). -/
theorem operate_congr (i : Instr) (draw : Nat) {a b c a' b' c' : Word}
    (h : [a, b, c].take (operandWidths i).length = [a', b', c'].take (operandWidths i).length) :
    operate i draw a b c = operate i draw a' b' c' := by
  cases i with
  | bext_32 | bext_64 | sel_32 | sel_64 | fmake_h | fmake_f | fmake_d | funpack fs fe fm =>
    obtain ⟨rfl, rfl, rfl⟩ : a = a' ∧ b = b' ∧ c = c' := by simpa [operandWidths] using h
    rfl
  | intl2_32 | intl2_64 =>
    obtain ⟨rfl, rfl⟩ : a = a' ∧ b = b' := by simpa [operandWidths] using h
    rfl
  | _ =>
    obtain rfl : a = a' := by simpa [operandWidths] using h
    rfl

/-! ### A too wide operand -/

section
variable {i : Instr} {a b c : Word} {l m n : Nat}

theorem operandTooWide_one (hi : operandWidths i = [l]) : OperandTooWide i a b c ↔ fits a l = false := by
  simp [OperandTooWide, hi]

theorem operandTooWide_two (hi : operandWidths i = [l, m]) :
    OperandTooWide i a b c ↔ fits a l = false ∨ fits b m = false := by
  simp [OperandTooWide, hi]

theorem operandTooWide_three (hi : operandWidths i = [l, m, n]) :
    OperandTooWide i a b c ↔ fits a l = false ∨ fits b m = false ∨ fits c n = false := by
  simp [OperandTooWide, hi]

theorem withOperand_two_wide {k : BitVec l → BitVec m → Result} (h : fits a l = false ∨ fits b m = false) :
    withOperand a l (fun x => withOperand b m (k x)) = .error .operandWidth := by
  cases ha : fits a l with
  | false => exact withOperand_wide ha
  | true =>
    rw [withOperand_fits ha]
    exact withOperand_wide (by simpa [ha] using h)

theorem withOperand_three_wide {k : BitVec l → BitVec m → BitVec n → Result}
    (h : fits a l = false ∨ fits b m = false ∨ fits c n = false) :
    withOperand a l (fun x => withOperand b m fun y => withOperand c n (k x y)) = .error .operandWidth := by
  cases ha : fits a l with
  | false => exact withOperand_wide ha
  | true => 
    rw [withOperand_fits ha]
    exact withOperand_two_wide (by simpa [ha] using h)

/-- No operand is too wide for a port as wide as the bus. -/
theorem fits_64_ne_false (x : Word) : fits x 64 ≠ false := by simp [fits_64]

/-- A port the instruction names with a bit at or above its declared width makes the operation answer `operandWidth`. -/
theorem operate_of_operandTooWide (draw : Nat) (h : OperandTooWide i a b c) :
    operate i draw a b c = .error .operandWidth := by
  unfold operate
  cases i with
  | f64tou32 => exact absurd ((operandTooWide_one rfl).1 h) (fits_64_ne_false a)
  | bext_32 | bext_64 =>
    have ha := ((operandTooWide_three rfl).1 h).resolve_right (by simp [fits_64])
    exact withOperand_wide ha
  | intl2_32 | intl2_64 => exact withOperand_two_wide ((operandTooWide_two rfl).1 h)
  | sel_32 | sel_64 | fmake_h | fmake_f | fmake_d | funpack fs fe fm =>
    exact withOperand_three_wide ((operandTooWide_three rfl).1 h)
  | _ => exact withOperand_wide ((operandTooWide_one rfl).1 h)

end

/-! ### How large a result can be -/

/-- A result, if there is one, is at most `max`. -/
def AtMost (max : Nat) (res : Result) : Prop := ∀ r, res = .ok r → r.toNat ≤ max

section
variable {max n : Nat}

@[simp] theorem atMost_ok {r : Word} : AtMost max (.ok r) ↔ r.toNat ≤ max := by simp [AtMost]

@[simp] theorem atMost_error (e : UndefReason) : AtMost max (.error e) := nofun

theorem atMost_ite {p : Prop} [Decidable p] {x y : Result} (hx : p → AtMost max x) (hy : ¬p → AtMost max y) :
    AtMost max (if p then x else y) := by
  split
  · exact hx ‹_›
  · exact hy ‹_›

theorem atMost_withOperand {x : Word} {k : BitVec n → Result} (hk : ∀ v, AtMost max (k v)) :
    AtMost max (withOperand x n k) := atMost_ite (fun _ => hk _) fun _ => atMost_error _

theorem toNat_word_le (k : Nat) : (word k).toNat ≤ k := Nat.mod_le _ _

theorem atMost_word {k : Nat} (h : k ≤ max) : AtMost max (.ok (word k)) :=
  atMost_ok.2 ((toNat_word_le k).trans h)

theorem atMost_zext (v : BitVec n) : AtMost (ones n) (.ok (zext v)) :=
  atMost_ok.2 (((BitVec.toNat_setWidth 64 v).trans_le (Nat.mod_le _ _)).trans (Nat.le_pred_of_lt v.isLt))

theorem atMost_boolWord (b : Bool) : AtMost 1 (.ok (boolWord b)) := by
  cases b <;> simp [boolWord]

/-- Every result fits the 64 bits of port `R`. -/
theorem atMost_ones_64 (res : Result) : AtMost (ones 64) res := fun r _ => Nat.le_pred_of_lt r.isLt

theorem le_ones_iff {x k : Nat} : x ≤ ones k ↔ x < 2 ^ k := by
  have := Nat.two_pow_pos k
  unfold ones; omega

end

/-! #### Indices and counts -/

section
variable {n : Nat} {a : Word}

theorem ne_zero_of_pop_eq_one {v : BitVec n} (h : pop v = 1) : v ≠ 0 := by
  rintro rfl
  simp [pop] at h

theorem ne_zero_of_isExpandedMask {v : BitVec n} (h : isExpandedMask v = true) : v ≠ 0 := by
  simp only [isExpandedMask, Bool.and_eq_true, decide_eq_true_eq] at h
  exact h.1

theorem pop_le (v : BitVec n) : pop v ≤ n := List.countP_le_length.trans_eq List.length_range

theorem atMost_loIdx {v : BitVec n} (hv : v ≠ 0) : AtMost (n - 1) (.ok (word (loIdx v))) :=
  atMost_word (Nat.le_sub_one_of_lt (loIdx_spec hv).1)

theorem atMost_hiIdx {v : BitVec n} (hv : v ≠ 0) : AtMost (n - 1) (.ok (word (hiIdx v.toNat))) :=
  atMost_word (Nat.le_sub_one_of_lt (hiIdx_lt hv))

theorem idxbitResult_atMost : AtMost (n - 1) (idxbitResult n a) :=
  atMost_withOperand fun _ => atMost_ite (fun h => atMost_loIdx (ne_zero_of_pop_eq_one h)) fun _ => atMost_error _

theorem idxexpResult_atMost : AtMost (n - 1) (idxexpResult n a) :=
  atMost_withOperand fun _ => atMost_ite (fun h => atMost_hiIdx (ne_zero_of_isExpandedMask h)) fun _ => atMost_error _

theorem lowestIndexResult_atMost : AtMost (n - 1) (lowestIndexResult n a) :=
  atMost_withOperand fun _ => atMost_ite (fun _ => atMost_error _) atMost_loIdx

theorem highestIndexResult_atMost : AtMost (n - 1) (highestIndexResult n a) :=
  atMost_withOperand fun _ => atMost_ite (fun _ => atMost_error _) atMost_hiIdx

theorem lzcntResult_atMost : AtMost (n - 1) (lzcntResult n a) :=
  atMost_withOperand fun _ => atMost_ite (fun _ => atMost_error _) fun _ => atMost_word (Nat.sub_le _ _)

theorem popcntResult_atMost : AtMost n (popcntResult n a) :=
  atMost_withOperand fun v => atMost_word (pop_le v)

/-! #### Values of the width -/

/-- MSB and FLP2 are one rule (R37, R54). -/
theorem msbResult_atMost : AtMost (ones n) (msbResult n a) :=
  atMost_withOperand fun _ => atMost_ite (fun _ => atMost_error _) fun _ => atMost_zext _

theorem clp2Result_atMost : AtMost (ones n) (clp2Result n a) :=
  atMost_withOperand fun _ => atMost_ite (fun _ => atMost_error _) fun _ =>
    atMost_ite (fun _ => atMost_error _) fun _ => atMost_zext _

theorem bextResult_atMost {b c : Word} : AtMost (ones n) (bextResult n a b c) :=
  atMost_withOperand fun _ => atMost_ite (fun _ => atMost_zext _) fun _ => atMost_error _

theorem intl2Result_atMost {b : Word} : AtMost (ones n) (intl2Result n a b) :=
  atMost_withOperand fun _ => atMost_withOperand fun _ => atMost_zext _

theorem selResult_atMost {b c : Word} : AtMost (ones n) (selResult n a b c) :=
  atMost_withOperand fun _ => atMost_withOperand fun _ => atMost_withOperand fun _ => atMost_zext _

theorem u32tou24Result_atMost : AtMost (ones 24) (u32tou24Result a) :=
  atMost_withOperand fun _ => atMost_ite (fun _ => atMost_zext _) fun _ => atMost_error _

theorem u24tou32Result_atMost : AtMost (ones 24) (u24tou32Result a) := by
  refine atMost_withOperand fun p => atMost_word (le_ones_iff.2 ?_)
  have h0 := (lane p 0).isLt
  have h1 := (lane p 1).isLt
  have h2 := (lane p 2).isLt
  omega

end

/-! #### Float fields and patterns -/

section
variable {e m s k x y : Nat} {a b c : Word}

theorem signField_le (e m p : Nat) : signField e m p ≤ 1 := Nat.and_le_right

theorem expField_le (e m p : Nat) : expField e m p ≤ ones e := Nat.and_le_right

theorem mantField_le (m p : Nat) : mantField m p ≤ ones m := Nat.and_le_right

/-- A field set above a pattern of `k` bits. -/
theorem shiftLeft_or_le (hx : x ≤ ones e) (hy : y ≤ ones k) : x <<< k ||| y ≤ ones (e + k) := by
  rw [le_ones_iff] at *
  refine Nat.or_lt_two_pow ?_ (hy.trans_le (Nat.pow_le_pow_right (by decide) (Nat.le_add_left k e)))
  rw [Nat.shiftLeft_eq, Nat.pow_add]
  exact Nat.mul_lt_mul_of_pos_right hx (Nat.two_pow_pos k)

theorem fsignResult_atMost (f : FloatFormat) : AtMost 1 (fsignResult f a) :=
  atMost_withOperand fun _ => atMost_word (signField_le _ _ _)

theorem fexpResult_atMost (f : FloatFormat) : AtMost (ones f.e) (fexpResult f a) :=
  atMost_withOperand fun _ => atMost_word (expField_le _ _ _)

theorem fmantResult_atMost (f : FloatFormat) : AtMost (ones f.m) (fmantResult f a) :=
  atMost_withOperand fun _ => atMost_word (mantField_le _ _)

theorem fmakeResult_atMost (f : FloatFormat) : AtMost (ones (1 + (f.e + f.m))) (fmakeResult f a b c) := by
  refine atMost_withOperand fun sign => atMost_withOperand fun exponent => atMost_withOperand fun mantissa =>
    atMost_word ?_
  unfold fieldsPattern
  rw [Nat.or_assoc]
  exact shiftLeft_or_le (le_ones_iff.2 sign.isLt)
    (shiftLeft_or_le (le_ones_iff.2 exponent.isLt) (le_ones_iff.2 mantissa.isLt))

/-! #### Conversions -/

theorem nanMantissa_le (draw : Nat) (m32 : BitVec 23) (hm : 1 ≤ m) : nanMantissa draw m32 m ≤ ones m := by
  have hpos : 0 < ones m := by
    have := Nat.one_lt_two_pow (n := m) (by omega)
    unfold ones; omega
  have := Nat.mod_lt (Config.nanPackMant draw m32 m) hpos
  unfold nanMantissa; omega

/-- The infinity is the largest pattern without a sign that is no NaN. -/
theorem infinity_le : ones e <<< m ≤ ones (e + m) := by
  simpa using shiftLeft_or_le (k := m) (y := 0) (le_refl (ones e)) (Nat.zero_le _)

theorem roundToFormat_le (tie : PackTie) : roundToFormat tie x e m ≤ ones (e + m) := by
  unfold roundToFormat
  split
  · exact Nat.zero_le _
  · exact (Nat.min_le_right _ _).trans infinity_le

/-- The sign bit, where the format has one, above the rest of the pattern. -/
theorem sign_or_le (hs : s ≤ 1) (hx : x ≤ 1) (hy : y ≤ ones k) :
    (if s = 1 then x <<< k else 0) ||| y ≤ ones (s + k) := by
  obtain rfl | rfl : s = 0 ∨ s = 1 := by omega
  · simpa using hy
  · exact shiftLeft_or_le (e := 1) hx hy

theorem packPattern_le (tie : PackTie) {nan : Nat} (hs : s ≤ 1) (hnan : nan ≤ ones m) (p : BitVec 32) :
    packPattern tie nan s e m p ≤ ones (s + (e + m)) := by
  refine sign_or_le hs (signField_le 8 23 p.toNat) ?_
  split
  · split
    · exact infinity_le
    · exact shiftLeft_or_le le_rfl hnan
  · exact roundToFormat_le tie

theorem packResult_atMost (draw : Nat) (hs : s ≤ 1) (hm : 1 ≤ m) : AtMost (ones (s + e + m)) (packResult draw s e m a) := by
  rw [Nat.add_assoc]
  exact atMost_withOperand fun p => atMost_word (packPattern_le _ hs (nanMantissa_le _ _ hm) p)

theorem bias_add_one (he : 1 ≤ e) : 2 * (bias e + 1) = 2 ^ e := by
  have := Nat.two_pow_pos (e - 1)
  obtain ⟨e, rfl⟩ := Nat.exists_eq_add_of_le' he
  simp only [bias, Nat.add_sub_cancel, Nat.pow_succ] at *
  omega

/-- A mantissa of `k` bits moved to the top of a Float's mantissa field. -/
theorem shiftLeft_mantissa_lt (hx : x < 2 ^ k) (hk : k ≤ 23) : x <<< (23 - k) < 2 ^ 23 := by
  rw [Nat.shiftLeft_eq]
  calc x * 2 ^ (23 - k) < 2 ^ k * 2 ^ (23 - k) := Nat.mul_lt_mul_of_pos_right hx (Nat.two_pow_pos _)
    _ = 2 ^ 23 := by rw [← Nat.pow_add, Nat.add_sub_cancel' hk]

/-- An exponent and a mantissa that fit a Float's fields make a pattern without a sign. -/
theorem floatMagnitude_le (hx : x ≤ 255) (hy : y < 2 ^ 23) : x <<< 23 ||| y ≤ ones 31 :=
  shiftLeft_or_le (e := 8) (k := 23) hx (le_ones_iff.2 hy)

theorem unpackMagnitude_le (he : 2 ≤ e) (he' : e ≤ 8) (hm : m ≤ 23) (hx : x < 2 ^ e) (hy : y < 2 ^ m) :
    unpackMagnitude e m x y ≤ ones 31 := by
  have hr := shiftLeft_mantissa_lt hy hm
  have hbias := bias_add_one (e := e) (by omega)
  unfold unpackMagnitude
  dsimp only
  split
  · split
    · exact Nat.zero_le _
    · obtain ⟨hlow, hhigh⟩ := hiIdx_spec ‹y ≠ 0›
      have hh : hiIdx y < m := (Nat.pow_lt_pow_iff_right (by decide)).1 (hlow.trans_lt hy)
      rw [Nat.pow_succ] at hhigh
      split
      · exact floatMagnitude_le (by omega) (shiftLeft_mantissa_lt (by omega) (by omega))
      · simpa using floatMagnitude_le (Nat.zero_le 255) hr
  · split
    · exact Nat.or_comm _ _ ▸ floatMagnitude_le le_rfl hr
    · have hpow : 2 ^ e ≤ 2 ^ 8 := Nat.pow_le_pow_right (by decide) he'
      have hne : x ≠ ones e := ‹_›
      unfold ones at hne
      exact Nat.or_comm _ _ ▸ floatMagnitude_le (by omega) hr

theorem unpackResult_atMost (hs : s ≤ 1) (he : 2 ≤ e) (he' : e ≤ 8) (hm : m ≤ 23) :
    AtMost (ones 32) (unpackResult s e m a b c) := by
  refine atMost_withOperand fun sign => atMost_withOperand fun exponent => atMost_withOperand fun mantissa =>
    atMost_word ?_
  have hsign : sign.toNat ≤ ones 1 :=
    le_ones_iff.2 (sign.isLt.trans_le (Nat.pow_le_pow_right (by decide) hs))
  rw [Nat.or_comm]
  exact shiftLeft_or_le hsign (unpackMagnitude_le he he' hm exponent.isLt mantissa.isLt)

theorem f16tof32Result_atMost : AtMost (ones 32) (f16tof32Result a) :=
  atMost_withOperand fun _ => unpackResult_atMost (by decide) (by decide) (by decide) (by decide)

theorem f64tou32Result_atMost : AtMost (ones 32) (f64tou32Result a) := by
  unfold f64tou32Result
  refine atMost_ite (fun _ => atMost_ok.2 (Nat.zero_le _)) fun _ =>
    atMost_ite (fun ⟨_, _, he, _⟩ => atMost_word (le_ones_iff.2 ?_)) fun _ => atMost_error _
  have hm := le_ones_iff.1 (mantField_le 52 a.toNat)
  rw [Nat.shiftRight_eq_div_pow, Nat.div_lt_iff_lt_mul (Nat.two_pow_pos _)]
  calc 2 ^ 52 + mantField 52 a.toNat < 2 ^ 32 * 2 ^ 21 := by omega
    _ ≤ 2 ^ 32 * 2 ^ (52 - (expField 11 52 a.toNat - 1023)) :=
      Nat.mul_le_mul_left _ (Nat.pow_le_pow_right (by decide) (by omega))

end

theorem formatLegal_iff {fs fe fm : Nat} :
    formatLegal fs fe fm = true ↔ fs ≤ 1 ∧ (2 ≤ fe ∧ fe ≤ 8) ∧ 1 ≤ fm ∧ fm ≤ 23 := by
  simp [formatLegal, and_assoc]

/-- A result of a well-formed instruction is within its natural width (R6, R24). -/
theorem operate_atMost {i : Instr} (hi : i.wf = true) (draw : Nat) (a b c : Word) :
    AtMost (resultMax i) (operate i draw a b c) := by
  unfold operate resultMax
  cases i with
  | bswap_64 | clrlsb_64 | explsb_64 | lsb_64 | exphlsb_64 | expmsb_64 | msb_64 | brev_64 | bext_64 | intl1_64 | intl2_64
  | sel_64 | flp2_64 | clp2_64 | fmake_d | u32tof64 => exact atMost_ones_64 _
  | bswap_8 | bswap_16 | bswap_32 | clrlsb_32 | explsb_32 | lsb_32 | exphlsb_32 | expmsb_32 | brev_32 | deintl_32
  | deintl_64 | intl1_32 => exact atMost_withOperand fun _ => atMost_zext _
  | haszb_32 | haszb_64 | ispow2_32 | ispow2_64 => exact atMost_withOperand fun _ => atMost_boolWord _
  | idxbit_32 | idxbit_64 => exact idxbitResult_atMost
  | idxexp_32 | idxexp_64 => exact idxexpResult_atMost
  | tzcnt_32 | tzcnt_64 | idxlsb_32 | idxlsb_64 => exact lowestIndexResult_atMost
  | lzcnt_32 | lzcnt_64 => exact lzcntResult_atMost
  | idxmsb_32 | idxmsb_64 | log2_32 | log2_64 => exact highestIndexResult_atMost
  | popcnt_32 | popcnt_64 => exact popcntResult_atMost
  | msb_32 | flp2_32 => exact msbResult_atMost
  | clp2_32 => exact clp2Result_atMost
  | bext_32 => exact bextResult_atMost
  | intl2_32 => exact intl2Result_atMost
  | sel_32 => exact selResult_atMost
  | u32tou24 => exact u32tou24Result_atMost
  | u24tou32 => exact u24tou32Result_atMost
  | fsign_h | fsign_f | fsign_d => exact fsignResult_atMost _
  | fexp_h | fexp_f | fexp_d => exact fexpResult_atMost _
  | fmant_h | fmant_f | fmant_d => exact fmantResult_atMost _
  | fmake_h | fmake_f => exact fmakeResult_atMost _
  | fpack fs fe fm =>
    obtain ⟨hs, -, hm, -⟩ := formatLegal_iff.1 hi
    exact packResult_atMost draw hs hm
  | funpack fs fe fm =>
    obtain ⟨hs, ⟨he, he'⟩, -, hm⟩ := formatLegal_iff.1 hi
    exact unpackResult_atMost hs he he' hm
  | f32tof16 => exact packResult_atMost draw le_rfl (by decide)
  | f16tof32 => exact f16tof32Result_atMost
  | f64tou32 => exact f64tou32Result_atMost

/-- Settles O16: `exec` of a well-formed instruction answers with `operate`, which checks the named ports, reads no other,
and stays within the natural width. -/
theorem operandWidthLaw : Obligations.OperandWidthLaw := by
  refine ⟨?wide, ?named, ?range⟩
  case wide =>
    intro i s hi h
    rw [exec_of_wf hi, operate_of_operandTooWide _ h, State.answer_error]
  case named =>
    intro i s s' t t' hi hd hp ht ht'
    rw [exec_of_wf hi] at ht ht'
    cases ht
    cases ht'
    have h : operate i s.draws s.a s.b s.c = operate i s'.draws s'.a s'.b s'.c := by rw [operate_congr i _ hp, hd]
    exact ⟨by rw [State.answer_st, State.answer_st, h], State.answer_r_eq h⟩
  case range =>
    intro i s t hi ht h0
    rw [exec_of_wf hi] at ht
    cases ht
    exact operate_atMost hi _ _ _ _ _ (State.answer_st_eq_zero.1 h0)

end Sys2Proof.Machine
end

/-! ## A response depends on its request alone: O8 -/
section

namespace Sys2Proof.Machine

section
variable {s e m : Nat} {a : Word}

/-- The mantissa a NaN would get is read only where the Float is a NaN. -/
theorem packPattern_of_not_nan (tie : PackTie) (nan nan' : Nat) {p : BitVec 32}
    (h : ¬(expField 8 23 p.toNat = 255 ∧ mantField 23 p.toNat ≠ 0)) :
    packPattern tie nan s e m p = packPattern tie nan' s e m p := by
  unfold packPattern
  dsimp only
  congr 1
  split
  · rw [if_pos (by_contra fun hm => h ⟨‹_›, hm⟩), if_pos (by_contra fun hm => h ⟨‹_›, hm⟩)]
  · rfl

/-- Packing a Float that is no NaN does not read the draw. -/
theorem packResult_of_not_nan (draw draw' : Nat)
    (h : ¬(expField 8 23 a.toNat = 255 ∧ mantField 23 a.toNat ≠ 0)) :
    packResult draw s e m a = packResult draw' s e m a := by
  unfold packResult
  cases hfit : fits a 32 with
  | false => rw [withOperand_wide hfit, withOperand_wide hfit]
  | true =>
    have hlow : (a.setWidth 32).toNat = a.toNat := by
      rw [BitVec.toNat_setWidth, Nat.mod_eq_of_lt (fits_iff.1 hfit)]
    rw [withOperand_fits hfit, withOperand_fits hfit, packPattern_of_not_nan _ _ _ (hlow ▸ h)]

/-- Whether a Float is packed does not depend on the draw. -/
theorem statusOf_packResult (draw draw' : Nat) :
    statusOf (packResult draw s e m a) = statusOf (packResult draw' s e m a) := by
  unfold packResult
  cases hfit : fits a 32 with
  | false => rw [withOperand_wide hfit, withOperand_wide hfit]
  | true => rw [withOperand_fits hfit, withOperand_fits hfit]; rfl

end

/-- No status depends on the draw. -/
theorem statusOf_operate (i : Instr) (draw draw' : Nat) (a b c : Word) :
    statusOf (operate i draw a b c) = statusOf (operate i draw' a b c) := by
  cases i with
  | fpack fs fe fm => exact statusOf_packResult draw draw'
  | f32tof16 => exact statusOf_packResult draw draw'
  | _ => rfl

/-- A request that packs no NaN gets an answer that does not depend on the draw. -/
theorem operate_of_not_packsNaN {q : Request} {i : Instr} (hi : decode q.cmd = .ok i) (h : q.packsNaN = false)
    (draw draw' : Nat) : operate i draw q.a q.b q.c = operate i draw' q.a q.b q.c := by
  unfold Request.packsNaN at h
  rw [hi] at h
  cases i with
  | fpack fs fe fm => exact packResult_of_not_nan draw draw' (by simpa using h)
  | f32tof16 => exact packResult_of_not_nan draw draw' (by simpa using h)
  | _ => rfl

/-- A command word has every request that carries it answered by one operation, or every one reported illegal. -/
theorem serve_cases (w : Command) :
    (∃ i, decode w = .ok i ∧ ∀ s : State, s.cmd = w → serve s = .next (s.answer (operate i s.draws s.a s.b s.c)))
      ∨ ∀ s : State, s.cmd = w → serve s = .next (s.raise .illegal) := by
  unfold serve
  cases hd : decode w with
  | error reason => exact .inr fun s hs => by rw [hs, hd]; rfl
  | ok i =>
    cases hi : i.wf with
    | true => exact .inl ⟨i, rfl, fun s hs => by rw [hs, hd]; exact exec_of_wf hi s⟩
    | false => exact .inr fun s hs => by rw [hs, hd]; exact exec_of_not_wf hi s

/-- Settles O8: the status never depends on the draw, and the result only where a NaN is packed. -/
theorem responseDependsOnTheRequestAlone : Obligations.ResponseDependsOnTheRequestAlone := by
  intro s s' t t' q rest rest' hs hs' ht ht'
  rw [step_of_presents hs] at ht
  rw [step_of_presents hs'] at ht'
  obtain ⟨i, hi, served⟩ | illegal := serve_cases q.cmd
  · rw [served _ rfl] at ht ht'
    cases ht
    cases ht'
    refine ⟨?_, fun h0 hn => ?_, fun h0 hd => ?_⟩
    · rw [State.answer_st, State.answer_st, statusOf_operate]; rfl
    · exact State.answer_r_eq (operate_of_not_packsNaN hi hn _ _) h0
    · exact State.answer_r_eq (congrArg (operate i · q.a q.b q.c) hd) h0
  · rw [illegal _ rfl] at ht ht'
    cases ht
    cases ht'
    exact ⟨rfl, nofun, nofun⟩

end Sys2Proof.Machine
end

/-! ## The table lookups of the portable datapath: O56 -/
section

namespace Sys2Proof.Machine

section
variable {n : Nat} {v : BitVec n}

/-! ### The portable isolated bit and expanded mask are those of the rules -/

/-- Negation isolates the lowest set bit (R34). -/
theorem portableLsb_eq_isolateLsb (v : BitVec n) : portableLsb v = isolateLsb v := by
  refine BitVec.eq_of_getLsbD_eq fun j hj => ?_
  have hneg : (0 : BitVec n) - v = -v := BitVec.zero_sub v
  have hlow : decide (∃ k < j, v.getLsbD k = true) = !decide (∀ k < j, v.getLsbD k = false) := by
    rw [← decide_not]; simp
  rw [portableLsb, hneg, BitVec.getLsbD_and, BitVec.getLsbD_neg, getLsbD_isolateLsb, hlow]
  cases v.getLsbD j <;> simp [hj]

/-- Bit `j` of `w` is set exactly when one of the `k` bits of `v` from bit `j` up is. -/
def SmearsDown (v w : BitVec n) (k : Nat) : Prop :=
  ∀ j, w.getLsbD j = true ↔ ∃ d < k, v.getLsbD (j + d) = true

theorem smearsDown_one (v : BitVec n) : SmearsDown v v 1 := by
  intro j
  simp

/-- A stage of the cascade doubles the reach (R36). -/
theorem SmearsDown.cascadeStage {w : BitVec n} {k : Nat} (h : SmearsDown v w k) :
    SmearsDown v (cascadeStage k w) (2 * k) := by
  intro j
  rw [Machine.cascadeStage, BitVec.getLsbD_or, BitVec.getLsbD_ushiftRight, Bool.or_eq_true, h j, h (k + j)]
  constructor
  · rintro (⟨d, hd, hv⟩ | ⟨d, hd, hv⟩)
    · exact ⟨d, by omega, hv⟩
    · exact ⟨k + d, by omega, by rwa [Nat.add_comm k j, Nat.add_assoc] at hv⟩
  · rintro ⟨d, hd, hv⟩
    by_cases hk : d < k
    · exact .inl ⟨d, hk, hv⟩
    · exact .inr ⟨d - k, by omega, by rwa [show k + j + (d - k) = j + d by omega]⟩

/-- A reach of the whole width expands the highest set bit. -/
theorem SmearsDown.eq_expandMsb {w : BitVec n} {k : Nat} (h : SmearsDown v w k) (hk : n ≤ k) : w = expandMsb v := by
  refine BitVec.eq_of_getLsbD_eq fun j hj => Bool.eq_iff_iff.2 ?_
  rw [h j, getLsbD_expandMsb]
  constructor
  · rintro ⟨d, -, hv⟩
    exact ⟨j + d, by omega, hv⟩
  · rintro ⟨i, hi, hv⟩
    have : i < n := BitVec.lt_of_getLsbD hv
    exact ⟨i - j, by omega, by rwa [Nat.add_sub_cancel' hi]⟩

/-- The shift-or cascade expands the highest set bit (R36). -/
theorem portableExpmsb_eq_expandMsb (hn : n ≤ 64) (v : BitVec n) : portableExpmsb v = expandMsb v := by
  have h32 := (smearsDown_one v).cascadeStage.cascadeStage.cascadeStage.cascadeStage.cascadeStage
  unfold portableExpmsb
  dsimp only
  split
  · exact h32.eq_expandMsb ‹n ≤ 32›
  · exact h32.cascadeStage.eq_expandMsb hn

theorem portableLsb_eq_two_pow (hv : v ≠ 0) : portableLsb v = BitVec.ofNat n (2 ^ loIdx v) := by
  rw [portableLsb_eq_isolateLsb, isolateLsb, if_neg hv]
  exact BitVec.eq_of_toNat_eq ((BitVec.toNat_twoPow n (loIdx v)).trans (BitVec.toNat_ofNat _ _).symm)

theorem portableExpmsb_eq_ones (hn : n ≤ 64) (hv : v ≠ 0) :
    portableExpmsb v = BitVec.ofNat n (ones (hiIdx v.toNat + 1)) := by
  rw [portableExpmsb_eq_expandMsb hn, expandMsb, if_neg hv]

end

/-! ### The tables on every single bit and every mask -/

theorem lookups_32 : ∀ k < 32,
    portableIdxbit32 (BitVec.ofNat 32 (2 ^ k)) = k ∧ portableIdxexp32 (BitVec.ofNat 32 (ones (k + 1))) = k := by
  decide

theorem lookups_64 : ∀ k < 64,
    portableIdxbit64 (BitVec.ofNat 64 (2 ^ k)) = k ∧ portableIdxexp64 (BitVec.ofNat 64 (ones (k + 1))) = k := by
  decide

/-- Settles O56: the lowest bit and the expanded mask are the `2 ^ k` and `ones (k + 1)` the tables are right on. -/
theorem deBruijnLookupsAgreeOnDefinedInputs : Obligations.DeBruijnLookupsAgreeOnDefinedInputs := by
  refine ⟨fun v hv => ⟨?_, ?_⟩, fun v hv => ⟨?_, ?_⟩, lookups_32, lookups_64⟩
  · rw [portableLsb_eq_two_pow hv]
    exact (lookups_32 _ (loIdx_spec hv).1).1
  · rw [portableExpmsb_eq_ones (by decide) hv]
    exact (lookups_32 _ (hiIdx_lt hv)).2
  · rw [portableLsb_eq_two_pow hv]
    exact (lookups_64 _ (loIdx_spec hv).1).1
  · rw [portableExpmsb_eq_ones (by decide) hv]
    exact (lookups_64 _ (hiIdx_lt hv)).2

end Sys2Proof.Machine
end

/-! ## Every response is the one its request would have had alone: O9, O10, O14, and the invariant after reset: O11, O12 -/
section

namespace Sys2Proof.Machine

section
variable {s : State} {q : Request} {rest : List HostInput}

theorem State.noReset_iff : s.noReset = true ↔ s.host.head? ≠ some .reset := bne_iff_ne

/-- The request in flight is answered as if it had been served alone, whatever else the state holds (R9). -/
theorem serve_responds_as_alone (s : State) :
    ∃ r st, serve s = .next (s.respond r st)
      ∧ some (s.respond r st).response = responseAlone ⟨s.cmd, s.a, s.b, s.c⟩ s.draws := by
  let q : Request := ⟨s.cmd, s.a, s.b, s.c⟩
  obtain ⟨r, st, hs, halone⟩ := serve_responds_alike (s := s)
    (s' := { State.reset with host := [.request q], draws := s.draws }.accept q []) rfl rfl rfl rfl rfl
  refine ⟨r, st, hs, ?_⟩
  rw [responseAlone, step_of_presents ⟨rfl, rfl⟩, halone]
  rfl

/-- A request presented to an idle unit gets the response it would have had alone, in the step that accepts it. -/
theorem step_of_presents_as_alone (h : s.Presents q rest) :
    ∃ r st, step s = .next ((s.accept q rest).respond r st)
      ∧ some ((s.accept q rest).respond r st).response = responseAlone q s.draws :=
  step_of_presents h ▸ serve_responds_as_alone (s.accept q rest)

/-- A request in flight gets the response it would have had alone, in a step in which reset is not applied. -/
theorem step_of_inFlight_as_alone (hf : s.inFlight = true) (h : s.noReset = true) :
    ∃ r st, step s = .next (s.respond r st)
      ∧ some (s.respond r st).response = responseAlone ⟨s.cmd, s.a, s.b, s.c⟩ s.draws :=
  step_of_inFlight hf h ▸ serve_responds_as_alone s

/-! ### The invariant -/

/-- The invariant speaks only of a response being given. -/
theorem State.Inv.of_not_responding (h : s.responding = false) : s.Inv where
  statusLegal := by simp [State.statusLegal, h]
  heldUntilAnswered := by simp [State.heldUntilAnswered, h]
  responseIsOwn hr := absurd hr (by simp [h])

/-- A response that the request in flight would have had alone meets the invariant. -/
theorem State.Inv.respond {r : Word} {st : Status}
    (h : some (s.respond r st).response = responseAlone ⟨s.cmd, s.a, s.b, s.c⟩ s.draws) : (s.respond r st).Inv where
  statusLegal := bne_iff_ne.2 st.code_ne_three
  heldUntilAnswered := rfl
  responseIsOwn _ := ⟨Nat.succ_pos _, h.symm⟩

theorem serve_inv (s : State) : ∃ t, serve s = .next t ∧ t.Inv := by
  obtain ⟨r, st, hs, halone⟩ := serve_responds_as_alone s
  exact ⟨_, hs, .respond halone⟩

/-- Every step makes the invariant hold, even from a state that does not meet it. -/
theorem step_inv (s : State) : ∃ t, step s = .next t ∧ t.Inv := by
  obtain ⟨rest, -, h⟩ | ⟨-, -, h⟩ | ⟨q, rest, -, -, h⟩ | ⟨q, rest, -, -, h⟩ | ⟨-, -, h⟩ := step_cases s
  · exact ⟨_, h, .of_not_responding rfl⟩
  · exact h ▸ serve_inv s
  · exact h ▸ serve_inv (s.accept q rest)
  · exact ⟨_, h, .of_not_responding rfl⟩
  · exact ⟨_, h, .of_not_responding rfl⟩

end

/-- Settles O9, by induction on the requests before the last: each step answers one and leaves the unit idle. -/
theorem requestsAnsweredInOrderAsIfAlone : Obligations.RequestsAnsweredInOrderAsIfAlone := by
  intro qs q rest
  induction qs with
  | nil =>
    intro s hf hh
    obtain ⟨r, st, hs, halone⟩ := step_of_presents_as_alone ⟨hf, hh⟩
    exact ⟨_, core_run_succ 0 hs, rfl, rfl, rfl, halone⟩
  | cons p ps ih =>
    intro s hf hh
    obtain ⟨r, st, hs⟩ := step_of_presents_responds ⟨hf, hh⟩
    obtain ⟨t, ht, hhost, hidle, hresp, halone⟩ := ih ((s.accept p _).respond r st) rfl rfl
    have hdraws : s.draws + 1 + ps.length = s.draws + (ps.length + 1) := Nat.succ_add_eq_add_succ _ _
    exact ⟨t, (core_run_succ (ps.length + 1) hs).trans ht, hhost, hidle, hresp,
      halone.trans (congrArg (responseAlone q) hdraws)⟩

/-- Settles O10: a step leads to a state that meets the invariant, wherever it starts. -/
theorem everyStepKeepsTheInvariant : Obligations.EveryStepKeepsTheInvariant := by
  intro s t _ ht
  obtain ⟨u, hu, hinv⟩ := step_inv s
  exact step_next_unique ht hu ▸ hinv

/-- Settles O14: a launch leaves the request in flight with no response given; the step after it answers or drops it. -/
theorem launchedRequestHeldUntilAnswered : Obligations.LaunchedRequestHeldUntilAnswered := by
  refine ⟨?held, ?answered, ?dropped, ?inFlight⟩
  case held =>
    intro s q rest hidle hh
    exact ⟨_, step_of_launch hidle hh, rfl, rfl, rfl, rfl, rfl, rfl, rfl⟩
  case answered =>
    intro s q rest hidle hh hreset
    have hn : (s.accept q rest).quiet.noReset = true := State.noReset_iff.2 hreset
    obtain ⟨r, st, hs, halone⟩ := step_of_inFlight_as_alone rfl hn
    exact ⟨_, (core_run_succ 1 (step_of_launch hidle hh)).trans (core_run_succ 0 hs), rfl, rfl, rfl, halone⟩
  case dropped =>
    intro s q rest hidle hh
    exact ⟨_, (core_run_succ 1 (step_of_launch hidle hh)).trans (core_run_succ 0 (step_of_reset rfl)), rfl, rfl, rfl⟩
  case inFlight =>
    intro s hf hn
    obtain ⟨r, st, hs, halone⟩ := step_of_inFlight_as_alone hf hn
    exact ⟨_, hs, rfl, rfl, rfl, st.code_ne_three, halone⟩

/-- Settles O11: after reset no response is being given. -/
theorem resetMeetsTheInvariant : Obligations.ResetMeetsTheInvariant :=
  .of_not_responding rfl

/-- Settles O12, by the definition of the reset state. -/
theorem resetStateIsIdle : Obligations.ResetStateIsIdle :=
  ⟨rfl, rfl, rfl⟩

end Sys2Proof.Machine
end

/-! ## A step is `exec` of the decoded instruction, and `exec` changes only the response: O6, O15 -/
section

namespace Sys2Proof.Machine

/-- Settles O15: every instruction gives one response, and giving a response changes no other field. -/
theorem execChangesOnlyTheResponse : Obligations.ExecChangesOnlyTheResponse := by
  intro i s t ht
  obtain ⟨r, st, hs⟩ := exec_responds i s
  cases hs.symm.trans ht
  exact ⟨rfl, rfl, rfl, rfl, rfl, rfl, rfl, rfl⟩

/-- A legal command in flight is answered by `exec` of its instruction. -/
theorem serve_of_decode {s : State} {i : Instr} (h : decode s.cmd = .ok i) : serve s = exec i s := by
  unfold serve
  rw [h]

theorem State.withFetchWord_presents (s : State) (nbits w : Nat) :
    (s.withFetchWord nbits w).Presents ⟨commandOfTableWord nbits w, s.a, s.b, s.c⟩ s.host :=
  ⟨rfl, rfl⟩

/-- The table's word names an instruction exactly when the decoder reads that instruction from its command word. -/
theorem decodeTableWord_eq_some {nbits w : Nat} {i : Instr} :
    decodeTableWord nbits w = some i ↔ decode (commandOfTableWord nbits w) = .ok i := by
  unfold decodeTableWord
  cases decode (commandOfTableWord nbits w) <;> simp [Except.toOption]

/-- Settles O6: each of the three ways in serves a request whose command decodes to the instruction. -/
theorem stepRunsTheDecodedInstruction : Obligations.StepRunsTheDecodedInstruction := by
  refine ⟨?inFlight, ?presented, ?fetched⟩
  case inFlight =>
    intro s i hf hn hi
    exact (step_of_inFlight hf hn).trans (serve_of_decode hi)
  case presented =>
    intro s q rest i h hi
    exact (step_of_presents h).trans (serve_of_decode hi)
  case fetched =>
    intro s nbits w i hi
    exact (step_of_presents (s.withFetchWord_presents nbits w)).trans (serve_of_decode (decodeTableWord_eq_some.1 hi))

end Sys2Proof.Machine
end

/-! ## The fields of a command word, and what the decoder accepts: O1, O2, O3 -/
section

namespace Sys2Proof

section
variable {w : Command} {i : Instr} {op : Op} {n wsel fs fe fm : Nat}

/-! ### The fields as slices of the number (R21) -/

theorem opcOf_eq (w : Command) : opcOf w = w.toNat % 256 := by
  simp [opcOf]

theorem wselOf_eq (w : Command) : wselOf w = w.toNat / 2 ^ 8 % 4 := by
  simp [wselOf, Nat.shiftRight_eq_div_pow]

theorem fsOf_eq (w : Command) : fsOf w = w.toNat / 2 ^ 10 % 2 := by
  simp [fsOf, Nat.shiftRight_eq_div_pow]

theorem feOf_eq (w : Command) : feOf w = w.toNat / 2 ^ 11 % 16 := by
  simp [feOf, Nat.shiftRight_eq_div_pow]

theorem fmOf_eq (w : Command) : fmOf w = w.toNat / 2 ^ 15 % 32 := by
  simp [fmOf, Nat.shiftRight_eq_div_pow]

theorem formatBitsOf_eq (w : Command) : formatBitsOf w = w.toNat / 2 ^ 10 % 2 ^ 10 := by
  simp [formatBitsOf, Nat.shiftRight_eq_div_pow]

theorem reservedOf_eq (w : Command) : reservedOf w = w.toNat / 2 ^ 20 := by
  have hw := w.isLt
  rw [reservedOf, BitVec.extractLsb'_toNat, Nat.shiftRight_eq_div_pow]
  omega

theorem wselOf_lt (w : Command) : wselOf w < 4 := (w.extractLsb' 8 2).isLt

/-- `CMD[19:10]` is zero exactly when the three format fields are. -/
theorem formatBitsOf_eq_zero : formatBitsOf w = 0 ↔ fsOf w = 0 ∧ feOf w = 0 ∧ fmOf w = 0 := by
  rw [formatBitsOf_eq, fsOf_eq, feOf_eq, fmOf_eq]
  omega

theorem Op.code_lt (op : Op) : op.code < 256 := by cases op <;> decide

/-- The fields of an assembled word do not overlap, so the word is their sum. -/
theorem toNat_commandWord (op : Op) (hw : wsel < 4) (hs : fs < 2) (he : fe < 16) (hm : fm < 32) :
    (commandWord op wsel fs fe fm).toNat = op.code + wsel * 2 ^ 8 + fs * 2 ^ 10 + fe * 2 ^ 11 + fm * 2 ^ 15 := by
  have hop := op.code_lt
  have field {x k : Nat} (hx : x * 2 ^ k < 2 ^ 32) : (BitVec.ofNat 32 x <<< k).toNat = x <<< k := by
    rw [BitVec.toNat_shiftLeft, BitVec.toNat_ofNat, Nat.shiftLeft_eq, Nat.shiftLeft_eq,
      Nat.mod_eq_of_lt (a := x) ((Nat.le_mul_of_pos_right x (Nat.two_pow_pos k)).trans_lt hx), Nat.mod_eq_of_lt hx]
  have or_field {x y k : Nat} (hy : y < 2 ^ k) : y ||| x <<< k = y + x * 2 ^ k := by
    rw [Nat.lor_comm, ← Nat.shiftLeft_add_eq_or_of_lt hy, Nat.shiftLeft_eq, Nat.add_comm]
  simp only [commandWord, BitVec.toNat_or, BitVec.toNat_ofNat]
  rw [field (by omega), field (by omega), field (by omega), field (by omega), Nat.mod_eq_of_lt (by omega),
    or_field (k := 8) (by omega), or_field (k := 10) (by omega), or_field (k := 11) (by omega),
    or_field (k := 15) (by omega)]

theorem fields_commandWord (op : Op) (hw : wsel < 4) (hs : fs < 2) (he : fe < 16) (hm : fm < 32) :
    reservedOf (commandWord op wsel fs fe fm) = 0 ∧ opcOf (commandWord op wsel fs fe fm) = op.code
      ∧ wselOf (commandWord op wsel fs fe fm) = wsel ∧ fsOf (commandWord op wsel fs fe fm) = fs
      ∧ feOf (commandWord op wsel fs fe fm) = fe ∧ fmOf (commandWord op wsel fs fe fm) = fm := by
  have hop := op.code_lt
  rw [reservedOf_eq, opcOf_eq, wselOf_eq, fsOf_eq, feOf_eq, fmOf_eq, toNat_commandWord op hw hs he hm]
  omega

/-- A word with no reserved bit set is assembled from its fields. -/
theorem commandWord_fields (hr : reservedOf w = 0) (hop : opcOf w = op.code) :
    commandWord op (wselOf w) (fsOf w) (feOf w) (fmOf w) = w := by
  apply BitVec.eq_of_toNat_eq
  rw [reservedOf_eq] at hr
  rw [opcOf_eq] at hop
  rw [wselOf_eq, fsOf_eq, feOf_eq, fmOf_eq, toNat_commandWord] <;> omega

/-! ### The opcode map (R22) -/

theorem Op.ofCode_code (op : Op) : Op.ofCode op.code = some op := by cases op <;> rfl

theorem Op.ofCode_eq_some : Op.ofCode n = some op ↔ n = op.code := by
  refine ⟨fun h => ?_, fun h => h ▸ op.ofCode_code⟩
  unfold Op.ofCode at h
  split at h <;> cases h <;> rfl

/-- No operation has this code (R22, R26 clause 2). -/
abbrev ReservedCode (opc : Nat) : Prop := opc = 0 ∨ (0x1C ≤ opc ∧ opc ≤ 0x1F) ∨ 0x2A ≤ opc

theorem Op.not_reservedCode (op : Op) : ¬ ReservedCode op.code := by cases op <;> decide

theorem Op.ofCode_eq_none : Op.ofCode n = none ↔ ReservedCode n := by
  constructor
  · intro h
    have small : ∀ n < 0x2A, Op.ofCode n = none → ReservedCode n := by decide
    by_cases hn : n < 0x2A
    · exact small n hn h
    · exact .inr (.inr (Nat.le_of_not_lt hn))
  · intro h
    cases hop : Op.ofCode n with
    | none => rfl
    | some op => exact absurd (Op.ofCode_eq_some.1 hop ▸ h) op.not_reservedCode

theorem Op.takesFormat_iff : op.takesFormat = true ↔ op.code = 0x24 ∨ op.code = 0x25 := by
  cases op <;> decide

/-! ### The table row an operation and a width select (R23) -/

/-- `WSEL` is not legal for the class of the operation with this code (R26 clause 3). -/
abbrev IllegalWidth (opc wsel : Nat) : Prop :=
  (0x02 ≤ opc ∧ opc ≤ 0x19 ∧ wsel < 2) ∨ (0x20 ≤ opc ∧ opc ≤ 0x23 ∧ wsel = 0)
    ∨ ((opc = 0x1A ∨ opc = 0x1B ∨ (0x24 ≤ opc ∧ opc ≤ 0x29)) ∧ wsel ≠ 0)

/-- Whether there is a row does not depend on the format fields. -/
theorem Op.exists_row (hw : wsel < 4) : (∃ i, op.row fs fe fm wsel = some i) ↔ ¬ IllegalWidth op.code wsel := by
  have h : (op.row fs fe fm wsel).isSome = decide (¬ IllegalWidth op.code wsel) := by
    interval_cases wsel <;> cases op <;> rfl
  rw [← Option.isSome_iff_exists, h, decide_eq_true_iff]

/-- The instruction of a row, encoded again and checked: the format is carried where the operation takes one and nowhere
else. -/
theorem Op.encode_row (h : op.row fs fe fm wsel = some i) :
    (encode i = if op.takesFormat then commandWord op wsel fs fe fm else commandWord op wsel 0 0 0)
      ∧ i.wf = if op.takesFormat then formatLegal fs fe fm else true := by
  unfold Op.row at h
  split at h <;> cases h <;> exact ⟨rfl, rfl⟩

/-- The format fields of a legal command word: a format in range where the operation takes one, else nothing (R26 clauses 5
and 4). -/
def Op.FormatOk (op : Op) (fs fe fm : Nat) : Prop :=
  (op.takesFormat = true → formatLegal fs fe fm = true) ∧ (op.takesFormat = false → fs = 0 ∧ fe = 0 ∧ fm = 0)

theorem Op.FormatOk.lt (h : op.FormatOk fs fe fm) : fs < 2 ∧ fe < 16 ∧ fm < 32 := by
  cases hf : op.takesFormat with
  | true =>
    have := Machine.formatLegal_iff.1 (h.1 hf)
    omega
  | false =>
    have := h.2 hf
    omega

theorem Op.FormatOk.encode_row (hf : op.FormatOk fs fe fm) (h : op.row fs fe fm wsel = some i) :
    i.wf = true ∧ encode i = commandWord op wsel fs fe fm := by
  obtain ⟨he, hi⟩ := Op.encode_row h
  cases htf : op.takesFormat with
  | true =>
    rw [htf, if_pos rfl] at he hi
    exact ⟨hi.trans (hf.1 htf), he⟩
  | false =>
    obtain ⟨rfl, rfl, rfl⟩ := hf.2 htf
    rw [htf] at hi
    exact ⟨hi, he.trans (ite_self _)⟩

/-- What the encoder assembles the command word of a well-formed instruction from. -/
theorem encode_of_wf (hi : i.wf = true) : ∃ op wsel fs fe fm,
    encode i = commandWord op wsel fs fe fm ∧ wsel < 4 ∧ op.row fs fe fm wsel = some i ∧ op.FormatOk fs fe fm := by
  cases i with
  | fpack fs fe fm | funpack fs fe fm => exact ⟨_, _, _, _, _, rfl, by decide, rfl, fun _ => hi, nofun⟩
  | _ => exact ⟨_, _, _, _, _, rfl, by decide, rfl, nofun, fun _ => ⟨rfl, rfl, rfl⟩⟩

/-! ### What the decoder accepts -/

/-- A word decodes to an instruction exactly when its fields select that instruction and no clause of R26 rejects them. -/
theorem decode_eq_ok : decode w = .ok i ↔
    reservedOf w = 0 ∧ ∃ op : Op, opcOf w = op.code ∧ op.row (fsOf w) (feOf w) (fmOf w) (wselOf w) = some i
      ∧ op.FormatOk (fsOf w) (feOf w) (fmOf w) := by
  simp only [← Op.ofCode_eq_some, Op.FormatOk, ← formatBitsOf_eq_zero]
  unfold decode
  by_cases hr : reservedOf w = 0
  · cases hop : Op.ofCode (opcOf w) with
    | none => simp [hr]
    | some op =>
      cases hrow : op.row (fsOf w) (feOf w) (fmOf w) (wselOf w) with
      | none => simp [hr, hrow]
      | some j =>
        cases hf : op.takesFormat with
        | true => by_cases hl : formatLegal (fsOf w) (feOf w) (fmOf w) = true <;> simp [hr, hrow, hf, hl]
        | false => by_cases hb : formatBitsOf w = 0 <;> simp [hr, hrow, hf, hb]
  · simp [hr]

theorem decode_encode (hi : i.wf = true) : decode (encode i) = .ok i := by
  obtain ⟨op, wsel, fs, fe, fm, he, hw, hrow, hf⟩ := encode_of_wf hi
  obtain ⟨hs, hexp, hm⟩ := hf.lt
  obtain ⟨hreserved, hopc, hwsel, hfs, hfe, hfm⟩ := fields_commandWord op hw hs hexp hm
  rw [he, decode_eq_ok, hopc, hwsel, hfs, hfe, hfm]
  exact ⟨hreserved, op, rfl, hrow, hf⟩

/-- A legal word is the encoding of the well-formed instruction it decodes to. -/
theorem encode_of_decode (h : decode w = .ok i) : i.wf = true ∧ encode i = w := by
  obtain ⟨hr, op, hop, hrow, hf⟩ := decode_eq_ok.1 h
  obtain ⟨hwf, he⟩ := hf.encode_row hrow
  exact ⟨hwf, he.trans (commandWord_fields hr hop)⟩

theorem wf_of_decode (h : decode w = .ok i) : i.wf = true := (encode_of_decode h).1

end

end Sys2Proof

namespace Sys2Proof.Machine

/-- Settles O2: the fields of the assembled word are those it was assembled from, and they select the instruction's row. -/
theorem decodeOfEncodeIsTheInstruction : Obligations.DecodeOfEncodeIsTheInstruction :=
  fun _ => decode_encode

/-- Settles O3: a word the decoder accepts is assembled again from its own fields. -/
theorem decodedInstructionReencodes : Obligations.DecodedInstructionReencodes :=
  fun _ _ => encode_of_decode

/-- Settles O1, by running the decoder on each word. -/
theorem commandWordsOfEveryFamilyDecode : Obligations.CommandWordsOfEveryFamilyDecode := by
  unfold Obligations.CommandWordsOfEveryFamilyDecode
  decide

end Sys2Proof.Machine
end

/-! ## Legal words are those of the table's rows, and illegal ones only report it: O4, O5, O59 -/
section

namespace Sys2Proof
open Machine

section
variable {w : Command} {op : Op} {wsel : Nat}

/-- Which words are legal, by their fields. -/
theorem exists_decode_eq_ok : (∃ i, decode w = .ok i) ↔
    reservedOf w = 0 ∧ ∃ op : Op, opcOf w = op.code ∧ ¬ IllegalWidth op.code (wselOf w)
      ∧ op.FormatOk (fsOf w) (feOf w) (fmOf w) := by
  simp only [decode_eq_ok]
  constructor
  · rintro ⟨i, hr, op, hop, hrow, hf⟩
    exact ⟨hr, op, hop, (Op.exists_row (wselOf_lt w)).1 ⟨i, hrow⟩, hf⟩
  · rintro ⟨hr, op, hop, hwidth, hf⟩
    obtain ⟨i, hrow⟩ := (Op.exists_row (wselOf_lt w)).2 hwidth
    exact ⟨i, hr, op, hop, hrow, hf⟩

theorem not_exists_decode_eq_ok : (¬ ∃ i, decode w = .ok i) ↔ ∃ reason, decode w = .error reason := by
  cases decode w <;> simp

/-! ### The rows of the opcode table (R27) -/

/-- The row of the opcode table for an operation at a width: the format fields are free where it takes a format. -/
def Op.tableRow (op : Op) (wsel : Nat) : TableRow :=
  ⟨commandWord op wsel 0 0 0, if op.takesFormat then 0xFFF003FF else 0xFFFFFFFF⟩

theorem Op.tableRow_mask_of_takesFormat (hf : op.takesFormat = true) : (op.tableRow wsel).mask = 0xFFF003FF :=
  if_pos hf

theorem Op.tableRow_mask_of_not_takesFormat (hf : op.takesFormat = false) : (op.tableRow wsel).mask = 0xFFFFFFFF :=
  if_neg (Bool.eq_false_iff.1 hf)

theorem Op.tableRow_mem (hw : wsel < 4) (h : ¬ IllegalWidth op.code wsel) : op.tableRow wsel ∈ opcodeRows := by
  revert h
  interval_cases wsel <;> cases op <;> decide

/-- Every row of the table is that of an operation at a legal width, which its pattern shows. -/
theorem exists_eq_tableRow : ∀ row ∈ opcodeRows, ∃ (op : Op) (wsel : Nat),
    wsel < 4 ∧ ¬ IllegalWidth op.code wsel ∧ row = op.tableRow wsel := by
  have read : ∀ row ∈ opcodeRows, ∃ op ∈ Op.ofCode (opcOf row.pattern),
      ¬ IllegalWidth op.code (wselOf row.pattern) ∧ row = op.tableRow (wselOf row.pattern) := by decide
  intro row hrow
  obtain ⟨op, -, hwidth, heq⟩ := read row hrow
  exact ⟨op, _, wselOf_lt _, hwidth, heq⟩

/-- The mask of the rows with free fields keeps all bits but `CMD[19:10]`. -/
theorem toNat_and_formatMask (w : Command) :
    (w &&& 0xFFF003FF).toNat = 2 ^ 20 * (w.toNat / 2 ^ 20) + w.toNat % 2 ^ 10 := by
  have mask : ∀ k < 32, (0xFFF003FF : Command).getLsbD k = decide (k < 10 ∨ 20 ≤ k) := by decide
  have kept (k : Nat) : (w &&& 0xFFF003FF).getLsbD k = (decide (k < 10 ∨ 20 ≤ k) && w.getLsbD k) := by
    rw [BitVec.getLsbD_and, Bool.and_comm]
    by_cases hk : k < 32
    · rw [mask k hk]
    · rw [BitVec.getLsbD_of_ge w k (Nat.not_lt.1 hk), Bool.and_false, Bool.and_false]
  apply Nat.eq_of_testBit_eq
  intro k
  rw [Nat.testBit_two_pow_mul_add _ (by omega), BitVec.testBit_toNat, kept, ← BitVec.testBit_toNat]
  split
  next hk =>
    rw [Nat.testBit_mod_two_pow]
    simp [Nat.not_le.2 hk]
  next hk =>
    rw [Nat.testBit_div_two_pow, Nat.sub_add_cancel (Nat.not_lt.1 hk)]
    simp [Nat.not_lt.1 hk]

/-- A row admits the words with its operation and width, no reserved bit, and format bits only where they are free. -/
theorem Op.tableRow_admits (hw : wsel < 4) : (op.tableRow wsel).admits w = true ↔
    reservedOf w = 0 ∧ opcOf w = op.code ∧ wselOf w = wsel ∧ (op.takesFormat = false → formatBitsOf w = 0) := by
  have hop := op.code_lt
  have hpattern : (op.tableRow wsel).pattern.toNat = _ :=
    toNat_commandWord op hw (fs := 0) (fe := 0) (fm := 0) (by decide) (by decide) (by decide)
  rw [reservedOf_eq, opcOf_eq, wselOf_eq, formatBitsOf_eq, TableRow.admits, beq_iff_eq, ← BitVec.toNat_inj, hpattern]
  cases hf : op.takesFormat with
  | true =>
    rw [Op.tableRow_mask_of_takesFormat hf, toNat_and_formatMask]
    simp only [reduceCtorEq, IsEmpty.forall_iff, and_true]
    omega
  | false =>
    have hall : w &&& 0xFFFFFFFF = w := BitVec.and_allOnes
    rw [Op.tableRow_mask_of_not_takesFormat hf, hall]
    simp only [forall_const]
    omega

/-- Two rows whose patterns differ on a bit that both fix have no word in common. -/
theorem TableRow.not_admits_both {row row' : TableRow} (h : row.pattern &&& row'.mask ≠ row'.pattern &&& row.mask)
    (w : Command) : ¬ (row.admits w = true ∧ row'.admits w = true) := by
  rintro ⟨hrow, hrow'⟩
  rw [TableRow.admits, beq_iff_eq] at hrow hrow'
  rw [← hrow, ← hrow', BitVec.and_assoc, BitVec.and_assoc, BitVec.and_comm row.mask] at h
  exact h rfl

theorem opcodeRows_patterns_differ :
    opcodeRows.Pairwise fun row row' => row.pattern &&& row'.mask ≠ row'.pattern &&& row.mask := by decide

/-- A word is legal exactly when a row admits it, with a format in range where the row leaves it free. -/
theorem exists_decode_iff_exists_row (w : Command) : (∃ i, decode w = .ok i) ↔
    ∃ row ∈ opcodeRows, row.admits w = true
      ∧ (row.mask = 0xFFF003FF → formatLegal (fsOf w) (feOf w) (fmOf w) = true)
      ∧ (row.mask = 0xFFF003FF ∨ row.mask = 0xFFFFFFFF) := by
  rw [exists_decode_eq_ok]
  constructor
  · rintro ⟨hr, op, hop, hwidth, hformat, hnone⟩
    have hadmits := (Op.tableRow_admits (wselOf_lt w)).2 ⟨hr, hop, rfl, fun hf => formatBitsOf_eq_zero.2 (hnone hf)⟩
    refine ⟨_, Op.tableRow_mem (wselOf_lt w) hwidth, hadmits, ?_⟩
    cases hf : op.takesFormat with
    | true => exact ⟨fun _ => hformat hf, .inl (Op.tableRow_mask_of_takesFormat hf)⟩
    | false =>
      have hmask := Op.tableRow_mask_of_not_takesFormat (wsel := wselOf w) hf
      exact ⟨fun h => absurd (hmask.symm.trans h) (by decide), .inr hmask⟩
  · rintro ⟨row, hmem, hadmits, hformat, -⟩
    obtain ⟨op, wsel, hw, hwidth, rfl⟩ := exists_eq_tableRow row hmem
    obtain ⟨hr, hop, rfl, hbits⟩ := (Op.tableRow_admits hw).1 hadmits
    exact ⟨hr, op, hop, hwidth, fun hf => hformat (Op.tableRow_mask_of_takesFormat hf),
      fun hf => formatBitsOf_eq_zero.1 (hbits hf)⟩

/-! ### The five clauses (R26) -/

/-- The sign field is one bit, so only the other two can be out of range (R26 clause 5). -/
theorem formatLegal_fields : formatLegal (fsOf w) (feOf w) (fmOf w) = true ↔
    ¬ (feOf w < 2 ∨ 8 < feOf w ∨ fmOf w < 1 ∨ 23 < fmOf w) := by
  have hs := fsOf_eq w
  rw [formatLegal_iff]
  omega

/-- Clauses 4 and 5 reject the format fields. -/
theorem Op.not_formatOk : ¬ op.FormatOk (fsOf w) (feOf w) (fmOf w) ↔
    (¬ (op.code = 0x24 ∨ op.code = 0x25) ∧ formatBitsOf w ≠ 0)
      ∨ ((op.code = 0x24 ∨ op.code = 0x25) ∧ (feOf w < 2 ∨ 8 < feOf w ∨ fmOf w < 1 ∨ 23 < fmOf w)) := by
  unfold Op.FormatOk
  rw [← Op.takesFormat_iff, formatLegal_fields, ← formatBitsOf_eq_zero]
  cases op.takesFormat <;> simp [-not_or]

theorem illegalCommand_iff_fields : IllegalCommand w ↔
    reservedOf w ≠ 0 ∨ ReservedCode (opcOf w) ∨ IllegalWidth (opcOf w) (wselOf w)
      ∨ (¬ (opcOf w = 0x24 ∨ opcOf w = 0x25) ∧ formatBitsOf w ≠ 0)
      ∨ ((opcOf w = 0x24 ∨ opcOf w = 0x25) ∧ (feOf w < 2 ∨ 8 < feOf w ∨ fmOf w < 1 ∨ 23 < fmOf w)) := by
  rw [reservedOf_eq, opcOf_eq, wselOf_eq, formatBitsOf_eq, feOf_eq, fmOf_eq]
  rfl

/-- The five clauses reject exactly the words that decode to no instruction. -/
theorem illegalCommand_iff : IllegalCommand w ↔ ¬ ∃ i, decode w = .ok i := by
  simp only [exists_decode_eq_ok, illegalCommand_iff_fields, ← Op.ofCode_eq_some, ← Op.ofCode_eq_none]
  cases hop : Op.ofCode (opcOf w) with
  | none => simp
  | some op =>
    rw [Op.ofCode_eq_some.1 hop, ← Op.not_formatOk]
    simp only [reduceCtorEq, false_or, Option.some.injEq, exists_eq_left', not_and_or, not_not, ne_eq]

end

end Sys2Proof

namespace Sys2Proof.Machine

/-- Settles O4: legal words are told apart by encoding again, and rows by the bits that both of two rows fix. -/
theorem decodingTotalAndUnambiguous : Obligations.DecodingTotalAndUnambiguous := by
  refine ⟨?total, ?injective, rfl, ?disjoint, exists_decode_iff_exists_row⟩
  case total =>
    intro w
    cases decode w with
    | ok i => exact .inl ⟨i, rfl, fun j hj => (Except.ok.inj hj).symm⟩
    | error reason => exact .inr ⟨reason, rfl⟩
  case injective =>
    intro w w' i h h'
    exact (encode_of_decode h).2.symm.trans (encode_of_decode h').2
  case disjoint => exact opcodeRows_patterns_differ.imp TableRow.not_admits_both

/-- An illegal command in flight is reported, whatever its operands (R74). -/
theorem serve_of_illegalCommand {s : State} (h : IllegalCommand s.cmd) : serve s = .next (s.raise .illegal) := by
  obtain ⟨reason, hr⟩ := not_exists_decode_eq_ok.1 (illegalCommand_iff.1 h)
  unfold serve
  rw [hr]
  rfl

theorem step_of_presents_illegal {s : State} {q : Request} {rest : List HostInput} (h : s.Presents q rest)
    (hq : IllegalCommand q.cmd) : step s = .next ((s.accept q rest).raise .illegal) :=
  (step_of_presents h).trans (serve_of_illegalCommand hq)

/-- What a legal operation answers is never reported as an illegal command (R75). -/
theorem statusOf_code_ne_two (res : Result) : (statusOf res).code ≠ 2 := by
  cases res with
  | ok v => exact (by decide : Status.ok.code ≠ 2)
  | error reason => exact (by decide : Status.undef.code ≠ 2)

/-- Settles O5: the five clauses reject the words that do not decode, and those alone are reported as illegal. -/
theorem illegalCommandsAnswerIllegal : Obligations.IllegalCommandsAnswerIllegal := by
  refine ⟨fun w => illegalCommand_iff.trans not_exists_decode_eq_ok, fun s q rest => step_of_presents_illegal, ?next, ?legal⟩
  case next =>
    intro s q q' rest h hq
    have hnext : ((s.accept q (.request q' :: rest)).raise .illegal).Presents q' rest := ⟨rfl, rfl⟩
    obtain ⟨r, st, hs', halone⟩ := step_of_presents_as_alone hnext
    exact ⟨_, (core_run_succ 1 (step_of_presents_illegal h hq)).trans (core_run_succ 0 hs'), rfl, rfl, halone⟩
  case legal =>
    intro s t q rest h hq ht
    obtain ⟨i, hi⟩ := not_not.1 (mt illegalCommand_iff.2 hq)
    rw [step_of_presents h, serve_of_decode (s := s.accept q rest) hi, exec_of_wf (wf_of_decode hi)] at ht
    cases ht
    rw [State.answer_st]
    exact statusOf_code_ne_two _

/-- Settles O59: what a word decodes to is well-formed, and `exec` reports a term that is not. -/
theorem packOutsideTheFormatRangeIsIllegal : Obligations.PackOutsideTheFormatRangeIsIllegal := by
  refine ⟨?decoded, ?executed⟩
  case decoded =>
    intro fs fe fm w h
    have not_decoded {i : Instr} (hi : i.wf = false) : decode w ≠ .ok i := fun hd =>
      Bool.false_ne_true (hi.symm.trans (wf_of_decode hd))
    exact ⟨not_decoded h, not_decoded h⟩
  case executed =>
    intro fs fe fm s h
    exact ⟨exec_of_not_wf (i := .fpack fs fe fm) h s, exec_of_not_wf (i := .funpack fs fe fm) h s⟩

end Sys2Proof.Machine
end

/-! ## A script stops at the first response that is not `OK`: O18 -/
section

namespace Sys2Proof.Machine

section
variable {results : List Word} {line : ScriptLine}

theorem isSome_mapM_value (xs : List ScriptOperand) :
    (xs.mapM (ScriptOperand.value results)).isSome = true ↔ ∀ x ∈ xs, (x.value results).isSome = true := by
  induction xs with
  | nil => simp
  | cons x xs ih =>
    rw [List.forall_mem_cons, ← ih, List.mapM_cons]
    cases x.value results <;> cases xs.mapM (ScriptOperand.value results) <;> simp

/-- After `n` earlier lines, the format fits the command word and every operand is a literal or names one of those lines. -/
def ScriptLine.WrittenFor (line : ScriptLine) (n : Nat) : Prop :=
  formatFits line.instr = true ∧ ∀ k, ScriptOperand.resultOf k ∈ line.operands → 1 ≤ k ∧ k ≤ n

theorem ScriptLine.isSome_request : (line.request results).isSome = true ↔ line.WrittenFor results.length := by
  have hvalues : (∀ x ∈ line.operands, (x.value results).isSome = true) ↔
      ∀ k, ScriptOperand.resultOf k ∈ line.operands → 1 ≤ k ∧ k ≤ results.length := by
    simp only [ScriptOperand.value_isSome]
    exact ⟨fun h k hk => h _ hk k rfl, fun h x hx k hxk => h k (hxk ▸ hx)⟩
  unfold ScriptLine.request ScriptLine.WrittenFor
  rw [← hvalues, ← isSome_mapM_value]
  cases formatFits line.instr <;> simp

theorem ScriptLine.request_eq_none : line.request results = none ↔ ¬ line.WrittenFor results.length := by
  rw [← ScriptLine.isSome_request, Option.not_isSome_iff_eq_none]

end

/-- The three ways a script can go at a line: the line has no request, its response ends the script, or its response is `OK`
and the script goes on with one result more. The response is the one the request gets alone. -/
theorem runScript_cons_cases (s : State) (results : List Word) (line : ScriptLine) (rest : List ScriptLine) :
    (line.request results = none ∧ runScript s results (line :: rest) = [])
    ∨ ∃ q x, line.request results = some q ∧ some x = responseAlone q s.draws
      ∧ ((x.st ≠ 0 ∧ runScript s results (line :: rest) = [x])
        ∨ ∃ t : State, t.draws = s.draws + 1 ∧ x.st = 0
            ∧ runScript s results (line :: rest) = x :: runScript t (results ++ [x.r]) rest) := by
  cases hq : line.request results with
  | none => exact .inl ⟨rfl, runScript_cons_none hq⟩
  | some q =>
    obtain ⟨r, st, hs, hrun⟩ := runScript_cons_some (s := s) (rest := rest) hq
    have hpresents : { s with host := [.request q], inFlight := false }.Presents q [] := ⟨rfl, rfl⟩
    obtain ⟨r', st', hs', halone⟩ := step_of_presents_as_alone hpresents
    have hsame : (⟨r, st.code⟩ : Response) = ⟨r', st'.code⟩ := congrArg State.response (step_next_unique hs hs')
    refine .inr ⟨q, ⟨r, st.code⟩, rfl, (congrArg some hsame).trans halone, ?_⟩
    by_cases hst : st.code = Status.ok.code
    · exact .inr ⟨(s.accept q []).respond r st, rfl, hst, by rw [hrun, if_pos hst]⟩
    · exact .inl ⟨hst, by rw [hrun, if_neg hst]⟩

/-! ### Inductions over a script -/

theorem length_runScript_le (script : List ScriptLine) :
    ∀ (s : State) (results : List Word), (runScript s results script).length ≤ script.length := by
  induction script with
  | nil => exact fun _ _ => le_rfl
  | cons line rest ih =>
    intro s results
    obtain ⟨-, hrun⟩ | ⟨q, x, -, -, ⟨-, hrun⟩ | ⟨t, -, -, hrun⟩⟩ := runScript_cons_cases s results line rest
    · simp [hrun]
    · simp [hrun]
    · simpa [hrun] using ih t (results ++ [x.r])

theorem st_of_mem_dropLast_runScript (script : List ScriptLine) :
    ∀ (s : State) (results : List Word), ∀ x ∈ (runScript s results script).dropLast, x.st = 0 := by
  induction script with
  | nil => exact fun _ _ _ => nofun
  | cons line rest ih =>
    intro s results y hy
    obtain ⟨-, hrun⟩ | ⟨q, x, -, -, ⟨-, hrun⟩ | ⟨t, -, hx, hrun⟩⟩ := runScript_cons_cases s results line rest
    · simp [hrun] at hy
    · simp [hrun] at hy
    · cases htail : runScript t (results ++ [x.r]) rest with
      | nil => simp [hrun, htail] at hy
      | cons z zs =>
        rw [hrun, htail, List.dropLast_cons_cons, List.mem_cons, ← htail] at hy
        obtain rfl | hy := hy
        · exact hx
        · exact ih t _ y hy

/-- The response in place `p` is the one the request of line `p` gets alone. -/
theorem runScript_getElem?_alone (script : List ScriptLine) :
    ∀ (s : State) (results : List Word) (p : Nat) (line : ScriptLine) (x : Response),
      script[p]? = some line → (runScript s results script)[p]? = some x →
        ∃ q, line.request (results ++ ((runScript s results script).take p).map Response.r) = some q
          ∧ some x = responseAlone q (s.draws + p) := by
  induction script with
  | nil => exact nofun
  | cons first rest ih =>
    intro s results p line x hline hx
    obtain ⟨-, hrun⟩ | ⟨q, y, hq, halone, hrest⟩ := runScript_cons_cases s results first rest
    · simp [hrun] at hx
    · cases p with
      | zero =>
        obtain rfl : first = line := by simpa using hline
        obtain rfl : y = x := by obtain ⟨-, hrun⟩ | ⟨t, -, -, hrun⟩ := hrest <;> simpa [hrun] using hx
        exact ⟨q, by simpa using hq, halone⟩
      | succ p =>
        obtain ⟨-, hrun⟩ | ⟨t, hdraws, -, hrun⟩ := hrest
        · simp [hrun] at hx
        · rw [hrun] at hx ⊢
          obtain ⟨q', hq', halone'⟩ := ih t (results ++ [y.r]) p line x hline hx
          refine ⟨q', by simpa using hq', ?_⟩
          rw [halone', hdraws, Nat.add_assoc, Nat.add_comm 1]

/-- A script in which every line has a request stops early only at a response that is not `OK`. -/
theorem runScript_stopped_early (script : List ScriptLine) :
    ∀ (s : State) (results : List Word),
      (∀ (p : Nat) (line : ScriptLine), script[p]? = some line → line.WrittenFor (results.length + p)) →
      (runScript s results script).length < script.length →
        ∃ x, (runScript s results script).getLast? = some x ∧ x.st ≠ 0 := by
  induction script with
  | nil => exact fun _ _ _ => nofun
  | cons first rest ih =>
    intro s results hlines hshort
    obtain ⟨hnone, -⟩ | ⟨q, x, -, -, ⟨hx, hrun⟩ | ⟨t, -, -, hrun⟩⟩ := runScript_cons_cases s results first rest
    · exact absurd (hlines 0 first rfl) (ScriptLine.request_eq_none.1 hnone)
    · exact ⟨x, by rw [hrun]; rfl, hx⟩
    · have hlines' (p : Nat) (line : ScriptLine) (hp : rest[p]? = some line) :
          line.WrittenFor ((results ++ [x.r]).length + p) := by
        rw [List.length_append, List.length_singleton, Nat.add_assoc, Nat.add_comm 1]
        exact hlines (p + 1) line hp
      rw [hrun] at hshort ⊢
      obtain ⟨y, hy, hst⟩ := ih t (results ++ [x.r]) hlines' (Nat.lt_of_succ_lt_succ hshort)
      exact ⟨y, by simp [List.getLast?_cons, hy], hst⟩

/-- Settles O18, by induction on the script: each line answered `OK` is followed by the script of the lines after it. -/
theorem scriptStopsAtFirstResponseNotOk : Obligations.ScriptStopsAtFirstResponseNotOk := by
  refine ⟨fun s results script => ⟨length_runScript_le script s results, st_of_mem_dropLast_runScript script s results⟩,
    fun s results script => runScript_getElem?_alone script s results,
    fun s results script => runScript_stopped_early script s results, ?noLine, ?ends⟩
  case noLine =>
    intro results line k hk hout
    refine ScriptLine.request_eq_none.2 fun h => ?_
    obtain ⟨-, hnames⟩ := h
    have := hnames k hk
    omega
  case ends =>
    rintro s results line script (hnone | hformat)
    · exact runScript_cons_none hnone
    · exact runScript_cons_none (ScriptLine.request_eq_none.2 fun h => Bool.false_ne_true (hformat.symm.trans h.1))

end Sys2Proof.Machine
end

/-! ## The contracts of the operations on port `A` -/
section

namespace Sys2Proof.Machine

section
variable {i : Instr} {n : Nat} {domain : BitVec n → Prop} {result : BitVec n → Word → Prop}

/-- An operation keeps its contract on a domain when `operate` answers the result the rule describes. -/
theorem answersOn_of_operate (hi : i.wf = true)
    (h : ∀ draw v b c, domain v → ∃ r, result v r ∧ operate i draw (zext v) b c = .ok r) :
    AnswersOn i n domain result := by
  intro s v ha hv
  obtain ⟨r, hr, hop⟩ := h s.draws v s.b s.c hv
  exact ⟨r, hr, by rw [exec_of_wf hi, ha, hop, State.answer_ok]⟩

theorem answersAll_of_operate (hi : i.wf = true)
    (h : ∀ draw v b c, ∃ r, result v r ∧ operate i draw (zext v) b c = .ok r) : AnswersAll i n result :=
  fun s v ha => answersOn_of_operate (domain := fun _ => True) hi (fun draw v b c _ => h draw v b c) s v ha trivial

theorem undefOutside_of_operate (hi : i.wf = true)
    (h : ∀ draw v b c, ¬ domain v → ∃ reason, operate i draw (zext v) b c = .error reason) :
    UndefOutside i n domain := by
  intro s v ha hv
  obtain ⟨reason, hop⟩ := h s.draws v s.b s.c hv
  rw [exec_of_wf hi, ha, hop, State.answer_error]

/-- Every operation checks port `A` against the first width of the operand table (R6, R24). -/
theorem widthChecked_of_operandWidths {widths : List Nat} (hi : i.wf = true) (hw : operandWidths i = n :: widths) :
    WidthChecked i n := by
  intro s ha
  have hwide : OperandTooWide i s.a s.b s.c := ⟨(n, s.a), by simp [hw], ha⟩
  rw [exec_of_wf hi, operate_of_operandTooWide _ hwide, State.answer_error]

end

end Sys2Proof.Machine
end

/-! ## Byte lanes: O19, O20 -/
section

namespace Sys2Proof.Machine

section
variable {m n k : Nat}

theorem toNat_lane (v : BitVec n) (k : Nat) : (lane v k).toNat = v.toNat / 2 ^ (8 * k) % 2 ^ 8 := by
  rw [lane, BitVec.extractLsb'_toNat, Nat.shiftRight_eq_div_pow]

/-- A lane depends on the number alone, not on the width it is written in. -/
theorem lane_eq_of_toNat_eq {v : BitVec m} {w : BitVec n} (h : v.toNat = w.toNat) (k : Nat) : lane v k = lane w k :=
  BitVec.eq_of_toNat_eq (by rw [toNat_lane, toNat_lane, h])

theorem lane_zext (hn : n ≤ 64) (v : BitVec n) (k : Nat) : lane (zext v) k = lane v k :=
  lane_eq_of_toNat_eq (toNat_zext hn v) k

/-! ### Lanes of shifted and masked values -/

/-- There is nothing above the width. -/
theorem lane_eq_zero (h : n ≤ 8 * k) (v : BitVec n) : lane v k = 0 :=
  BitVec.eq_of_getLsbD_eq fun i _ => by simp [BitVec.getLsbD_of_ge v (8 * k + i) (by omega)]

theorem lane_or (v w : BitVec n) (k : Nat) : lane (v ||| w) k = lane v k ||| lane w k := BitVec.extractLsb'_or

theorem lane_and (v w : BitVec n) (k : Nat) : lane (v &&& w) k = lane v k &&& lane w k := BitVec.extractLsb'_and

theorem lane_ushiftRight (v : BitVec n) (m k : Nat) : lane (v >>> (8 * m)) k = lane v (m + k) := by
  refine BitVec.eq_of_getLsbD_eq fun i hi => ?_
  rw [getLsbD_lane, getLsbD_lane, BitVec.getLsbD_ushiftRight, ← Nat.add_assoc, ← Nat.mul_add]

theorem lane_shiftLeft (hk : k < n / 8) (v : BitVec n) (m : Nat) :
    lane (v <<< (8 * m)) k = if k < m then 0 else lane v (k - m) := by
  refine BitVec.eq_of_getLsbD_eq fun i hi => ?_
  rw [getLsbD_lane, BitVec.getLsbD_shiftLeft, decide_eq_true (by omega : 8 * k + i < n)]
  split
  · rw [decide_eq_true (by omega : 8 * k + i < 8 * m)]
    simp
  · have hbit : 8 * k + i - 8 * m = 8 * (k - m) + i := by omega
    rw [getLsbD_lane, decide_eq_false (by omega : ¬ 8 * k + i < 8 * m), hbit]
    rfl

/-! ### Reversing the lanes (R29) -/

/-- The lanes of a whole number of bytes are reversed. -/
theorem lane_byteSwap (hn : n % 8 = 0) (hk : k < n / 8) (v : BitVec n) :
    lane (byteSwap v) k = lane v (n / 8 - 1 - k) := by
  refine BitVec.eq_of_getLsbD_eq fun i hi => ?_
  have hlane : (8 * k + i) / 8 = k := by omega
  have hbit : (8 * k + i) % 8 = i := by omega
  have hin : 8 * k + i < n := by omega
  rw [getLsbD_lane, getLsbD_lane, getLsbD_byteSwap, hlane, hbit, decide_eq_true hin, Bool.true_and]

/-- A value of a whole number of bytes is known by its lanes. -/
theorem eq_of_lane_eq (hn : n % 8 = 0) {v w : BitVec n} (h : ∀ k < n / 8, lane v k = lane w k) : v = w := by
  refine BitVec.eq_of_getLsbD_eq fun j hj => ?_
  have hbit : j % 8 < 8 := Nat.mod_lt j (by decide)
  have hlane : (lane v (j / 8)).getLsbD (j % 8) = (lane w (j / 8)).getLsbD (j % 8) := by rw [h (j / 8) (by omega)]
  rwa [getLsbD_lane, getLsbD_lane, decide_eq_true hbit, Bool.true_and, Bool.true_and, Nat.div_add_mod] at hlane

theorem byteSwap_byteSwap (hn : n % 8 = 0) (v : BitVec n) : byteSwap (byteSwap v) = v := by
  refine eq_of_lane_eq hn fun k hk => ?_
  rw [lane_byteSwap hn hk, lane_byteSwap hn (by omega)]
  congr 1
  omega

/-- One byte has nothing to swap with. -/
theorem byteSwap_of_byte (v : BitVec 8) : byteSwap v = v := by
  refine eq_of_lane_eq rfl fun k hk => ?_
  obtain rfl : k = 0 := by omega
  exact lane_byteSwap rfl hk v

/-- The masks of the printed form keep one lane each (R29). -/
theorem lane_mask : ∀ k < 4,
    lane 0x0000FF00#32 k = (if k = 1 then 0xFF#8 else 0)
      ∧ lane 0x00FF0000#32 k = (if k = 2 then 0xFF#8 else 0) := by decide

/-- Lane `k` comes from one of the four terms of the printed form, and the other three are zero there (R29). -/
theorem portableBswap32_eq_byteSwap (v : BitVec 32) : portableBswap32 v = byteSwap v := by
  refine eq_of_lane_eq rfl fun k hk => ?_
  have hterms : portableBswap32 v =
      v >>> (8 * 3) ||| v >>> (8 * 1) &&& 0x0000FF00#32 ||| v <<< (8 * 1) &&& 0x00FF0000#32 ||| v <<< (8 * 3) := rfl
  obtain ⟨hmask1, hmask2⟩ := lane_mask k hk
  have habove (j : Nat) (hj : 4 ≤ j) : lane v j = 0 := lane_eq_zero (by omega) v
  have hkept (b : BitVec 8) : b &&& 0xFF#8 = b := BitVec.and_allOnes
  rw [lane_byteSwap rfl hk, hterms]
  simp only [lane_or, lane_and, lane_ushiftRight, lane_shiftLeft hk, hmask1, hmask2]
  obtain rfl | rfl | rfl | rfl : k = 0 ∨ k = 1 ∨ k = 2 ∨ k = 3 := by omega
  · simp
  · simp [habove, hkept]
  · simp [habove, hkept]
  · simp [habove]

theorem bswapResult_zext (hn : n ≤ 64) (v : BitVec n) : bswapResult n (zext v) = .ok (zext (byteSwap v)) :=
  withOperand_zext hn v

/-- BSWAP of a width answers a result within the width, with the lanes reversed. -/
theorem answersAll_of_bswap {i : Instr} (hi : i.wf = true) (hn : n ≤ 64) (h8 : n % 8 = 0)
    (hop : ∀ draw a b c, operate i draw a b c = bswapResult n a) :
    AnswersAll i n fun v r => r.toNat < 2 ^ n ∧ ∀ k < n / 8, lane r k = lane v (n / 8 - 1 - k) := by
  refine answersAll_of_operate hi fun draw v b c =>
    ⟨zext (byteSwap v), ⟨fits_iff.1 (fits_zext hn _), fun k hk => ?_⟩, ?_⟩
  · rw [lane_zext hn, lane_byteSwap h8 hk]
  · rw [hop, bswapResult_zext hn]

end

/-- Settles O19: at each width the arm of `operate` is `bswapResult`, and lanes determine the value. -/
theorem bswapReversesByteLanes : Obligations.BswapReversesByteLanes :=
  ⟨answersAll_of_bswap rfl (by decide) rfl fun _ _ _ _ => rfl,
    answersAll_of_bswap rfl (by decide) rfl fun _ _ _ _ => rfl,
    answersAll_of_bswap rfl (by decide) rfl fun _ _ _ _ => rfl,
    answersAll_of_bswap rfl (by decide) rfl fun _ _ _ _ => rfl,
    widthChecked_of_operandWidths rfl rfl, widthChecked_of_operandWidths rfl rfl, widthChecked_of_operandWidths rfl rfl,
    portableBswap32_eq_byteSwap, byteSwap_of_byte, byteSwap_byteSwap rfl, byteSwap_byteSwap rfl, byteSwap_byteSwap rfl⟩

section
variable {n : Nat}

/-! ### The three lanes of a `uint24` (R30, R31) -/

theorem toNat_uint24Pattern (byte0 byte1 byte2 : BitVec 8) :
    (uint24Pattern byte0 byte1 byte2).toNat = byte0.toNat + 256 * byte1.toNat + 65536 * byte2.toNat := by
  have h0 := byte0.isLt
  have h1 := byte1.isLt
  simp only [uint24Pattern, BitVec.toNat_append]
  rw [← Nat.shiftLeft_add_eq_or_of_lt h1, ← Nat.shiftLeft_add_eq_or_of_lt h0]
  omega

/-- A number below `2 ^ 24` is the little-endian sum of its three low lanes. -/
theorem sum_lanes_of_lt {v : BitVec n} (h : v.toNat < 2 ^ 24) :
    (lane v 0).toNat + 256 * (lane v 1).toNat + 65536 * (lane v 2).toNat = v.toNat := by
  simp only [toNat_lane]
  omega

theorem toNat_uint24Pattern_lanes {v : BitVec n} (h : v.toNat < 2 ^ 24) :
    (uint24Pattern (lane v 0) (lane v 1) (lane v 2)).toNat = v.toNat := by
  rw [toNat_uint24Pattern, sum_lanes_of_lt h]

theorem u32tou24Result_of_lt {v : BitVec 32} (h : v.toNat < 2 ^ 24) :
    u32tou24Result (zext v) = .ok (zext (uint24Pattern (lane v 0) (lane v 1) (lane v 2))) := by
  rw [u32tou24Result, withOperand_zext (by decide), if_pos h]

theorem u32tou24Result_of_not_lt {v : BitVec 32} (h : ¬ v.toNat < 2 ^ 24) :
    u32tou24Result (zext v) = .error .uint24Range := by
  rw [u32tou24Result, withOperand_zext (by decide), if_neg h]

theorem u24tou32Result_zext (p : BitVec 24) : u24tou32Result (zext p) = .ok (word p.toNat) := by
  rw [u24tou32Result, withOperand_zext (by decide), sum_lanes_of_lt p.isLt]

end

/-- Settles O20: the pattern and the integer are the same number, the sum of its three lanes. -/
theorem uint24ConversionsKeepTheByteLanes : Obligations.Uint24ConversionsKeepTheByteLanes := by
  refine ⟨?toPattern, widthChecked_of_operandWidths rfl rfl, ?outOfRange, ?toInteger,
    widthChecked_of_operandWidths rfl rfl⟩
  case toPattern =>
    refine answersOn_of_operate rfl fun _ v _ _ hv => ⟨_, ?_, u32tou24Result_of_lt hv⟩
    have hnum := (toNat_zext (by decide) _).trans (toNat_uint24Pattern_lanes hv)
    exact ⟨hnum, fun k _ => lane_eq_of_toNat_eq hnum k⟩
  case outOfRange => exact undefOutside_of_operate rfl fun _ v _ _ hv => ⟨_, u32tou24Result_of_not_lt hv⟩
  case toInteger =>
    refine answersAll_of_operate rfl fun _ p _ _ => ⟨_, ?_, u24tou32Result_zext p⟩
    have hnum : (word p.toNat).toNat = p.toNat := toNat_word (p.isLt.trans (by decide))
    exact ⟨hnum, hnum.trans (sum_lanes_of_lt p.isLt).symm⟩

end Sys2Proof.Machine
end

/-! ## Results given bit by bit -/
section

namespace Sys2Proof.Machine

section
variable {i : Instr} {n : Nat} {domain : BitVec n → Prop}
variable {f : BitVec n → BitVec n} {bits : BitVec n → Nat → Prop}

/-- A zero extension has zeros above the width, so its low bits say all. -/
theorem bitsAre_zext {w : BitVec n} {g : Nat → Prop} (h : ∀ j < n, w.getLsbD j = true ↔ g j) :
    BitsAre n (zext w) g := by
  intro j hj
  rw [getLsbD_zext, decide_eq_true hj, Bool.true_and]
  constructor
  · intro hw
    have hlt : j < n := BitVec.lt_of_getLsbD hw
    exact ⟨hlt, (h j hlt).1 hw⟩
  · rintro ⟨hlt, hg⟩
    exact (h j hlt).2 hg

/-- An operation that answers `f v` keeps its contract when the bits of `f v` are those the rule gives. -/
theorem answersOn_of_bits (hi : i.wf = true)
    (hop : ∀ draw v b c, domain v → operate i draw (zext v) b c = .ok (zext (f v)))
    (hbits : ∀ v, domain v → ∀ j < n, (f v).getLsbD j = true ↔ bits v j) :
    AnswersOn i n domain fun v r => r = zext (f v) ∧ BitsAre n r (bits v) :=
  answersOn_of_operate hi fun draw v b c hv =>
    ⟨zext (f v), ⟨rfl, bitsAre_zext (hbits v hv)⟩, hop draw v b c hv⟩

theorem answersAll_of_bits (hi : i.wf = true) (hop : ∀ draw v b c, operate i draw (zext v) b c = .ok (zext (f v)))
    (hbits : ∀ v, ∀ j < n, (f v).getLsbD j = true ↔ bits v j) :
    AnswersAll i n fun v r => r = zext (f v) ∧ BitsAre n r (bits v) :=
  answersAll_of_operate hi fun draw v b c => ⟨zext (f v), ⟨rfl, bitsAre_zext (hbits v)⟩, hop draw v b c⟩

end

end Sys2Proof.Machine
end

/-! ## Masks from the lowest and the highest set bit: O21 to O26 -/
section

namespace Sys2Proof.Machine

section
variable {n : Nat}

/-! ### What each operation answers on an operand within the width -/

theorem clrlsbResult_zext (hn : n ≤ 64) (v : BitVec n) : clrlsbResult n (zext v) = .ok (zext (v &&& (v - 1))) :=
  withOperand_zext hn v

/-- The upper bits are cleared, the spec's choice D11 (R33). -/
theorem explsbResult_zext (hn : n ≤ 64) (v : BitVec n) : explsbResult n (zext v) = .ok (zext (expandLsb .zero v)) :=
  withOperand_zext hn v

theorem lsbResult_zext (hn : n ≤ 64) (v : BitVec n) : lsbResult n (zext v) = .ok (zext (portableLsb v)) := by
  rw [lsbResult, withOperand_zext hn, portableLsb_eq_isolateLsb]

theorem exphlsbResult_zext (hn : n ≤ 64) (v : BitVec n) : exphlsbResult n (zext v) = .ok (zext (v ||| (0 - v))) :=
  withOperand_zext hn v

theorem expmsbResult_zext (hn : n ≤ 64) (v : BitVec n) : expmsbResult n (zext v) = .ok (zext (portableExpmsb v)) := by
  rw [expmsbResult, withOperand_zext hn, portableExpmsb_eq_expandMsb hn]

/-- `ones (h + 1)` less its upper half is `2 ^ h` (R37). -/
theorem portableMsb_eq_isolateMsb (hn : n ≤ 64) {v : BitVec n} (hv : v ≠ 0) : portableMsb v = isolateMsb v := by
  have hmask : (portableExpmsb v).toNat = ones (hiIdx v.toNat + 1) := by
    rw [portableExpmsb_eq_ones hn hv, BitVec.toNat_ofNat, ones]
    have hle : 2 ^ (hiIdx v.toNat + 1) ≤ 2 ^ n := Nat.pow_le_pow_right (by decide) (hiIdx_lt hv)
    exact Nat.mod_eq_of_lt (by have := Nat.two_pow_pos (hiIdx v.toNat + 1); omega)
  have hhalf : (portableExpmsb v >>> 1).toNat = ones (hiIdx v.toNat + 1) / 2 := by
    rw [BitVec.toNat_ushiftRight, hmask, Nat.shiftRight_eq_div_pow, Nat.pow_one]
  have hle : portableExpmsb v >>> 1 ≤ portableExpmsb v := by
    rw [BitVec.le_def, hhalf, hmask]
    exact Nat.div_le_self _ _
  refine BitVec.eq_of_toNat_eq ?_
  rw [portableMsb, BitVec.toNat_sub_of_le hle, hhalf, hmask, toNat_isolateMsb hv, ones, Nat.pow_succ]
  omega

theorem msbResult_of_ne_zero (hn : n ≤ 64) {v : BitVec n} (hv : v ≠ 0) :
    msbResult n (zext v) = .ok (zext (portableMsb v)) := by
  rw [msbResult, withOperand_zext hn, if_neg hv, portableMsb_eq_isolateMsb hn hv]

theorem msbResult_of_not_ne_zero (hn : n ≤ 64) {v : BitVec n} (hv : ¬ v ≠ 0) :
    msbResult n (zext v) = .error .zeroInput := by
  rw [msbResult, withOperand_zext hn, if_pos (not_not.1 hv)]

/-! ### The bits of each result -/

theorem clearLsb_bit_iff (v : BitVec n) (j : Nat) :
    (v &&& (v - 1)).getLsbD j = true ↔ v.getLsbD j = true ∧ ∃ k < j, v.getLsbD k = true := by
  rw [← clearLsb, getLsbD_clearLsb, Bool.and_eq_true, decide_eq_true_iff]

theorem expandLsb_zero_bit_iff (v : BitVec n) (j : Nat) (hj : j < n) :
    (expandLsb .zero v).getLsbD j = true ↔ ∀ k < j, v.getLsbD k = false := by
  rw [getLsbD_expandLsb_zero v j hj, decide_eq_true_iff]

theorem expandLsb_keep_bit_iff (v : BitVec n) (j : Nat) (hj : j < n) :
    (expandLsb .keep v).getLsbD j = true ↔ v.getLsbD j = true ∨ ∀ k < j, v.getLsbD k = false := by
  rw [getLsbD_expandLsb_keep v j hj, Bool.or_eq_true, decide_eq_true_iff]

theorem portableLsb_bit_iff (v : BitVec n) (j : Nat) :
    (portableLsb v).getLsbD j = true ↔ v.getLsbD j = true ∧ ∀ k < j, v.getLsbD k = false := by
  rw [portableLsb_eq_isolateLsb, getLsbD_isolateLsb, Bool.and_eq_true, decide_eq_true_iff]

theorem expandHighLsb_bit_iff (v : BitVec n) (j : Nat) (hj : j < n) :
    (v ||| (0 - v)).getLsbD j = true ↔ ∃ k ≤ j, v.getLsbD k = true := by
  rw [← expandHighLsb, getLsbD_expandHighLsb v j hj, decide_eq_true_iff]

theorem portableExpmsb_bit_iff (hn : n ≤ 64) (v : BitVec n) (j : Nat) :
    (portableExpmsb v).getLsbD j = true ↔ ∃ k, j ≤ k ∧ v.getLsbD k = true := by
  rw [portableExpmsb_eq_expandMsb hn, getLsbD_expandMsb]

/-- `hiIdx` is the only index of a set bit with none above. -/
theorem eq_hiIdx_iff {v : BitVec n} (hv : v ≠ 0) (j : Nat) :
    j = hiIdx v.toNat ↔ v.getLsbD j = true ∧ ∀ k, j < k → v.getLsbD k = false := by
  obtain ⟨hset, habove⟩ := getLsbD_hiIdx hv
  constructor
  · rintro rfl
    exact ⟨hset, habove⟩
  · rintro ⟨hj, hj'⟩
    rcases Nat.lt_trichotomy j (hiIdx v.toNat) with h | h | h
    · exact absurd hset (by simp [hj' _ h])
    · exact h
    · exact absurd hj (by simp [habove _ h])

theorem portableMsb_bit_iff (hn : n ≤ 64) {v : BitVec n} (hv : v ≠ 0) (j : Nat) :
    (portableMsb v).getLsbD j = true ↔ v.getLsbD j = true ∧ ∀ k, j < k → v.getLsbD k = false := by
  rw [portableMsb_eq_isolateMsb hn hv, getLsbD_isolateMsb hv, decide_eq_true_iff, eq_hiIdx_iff hv]

/-! ### The two readings of EXPLSB (R33) -/

/-- In 0 and in a power of two no set bit has another below it. -/
theorem no_lower_bit_of_zero_or_two_pow {v : BitVec n} (hv : v = 0 ∨ ∃ k, v.toNat = 2 ^ k) {j : Nat}
    (hj : v.getLsbD j = true) : ∀ k < j, v.getLsbD k = false := by
  obtain rfl | ⟨m, hm⟩ := hv
  · simp at hj
  · have hbit (k : Nat) : v.getLsbD k = decide (m = k) := by rw [← BitVec.testBit_toNat, hm, Nat.testBit_two_pow]
    rw [hbit, decide_eq_true_iff] at hj
    intro k hk
    rw [hbit, decide_eq_false (by omega)]

/-- Keeping the upper bits matters only where a set bit lies above the lowest one. -/
theorem expandLsb_keep_eq_zero {v : BitVec n} (hv : v = 0 ∨ ∃ k, v.toNat = 2 ^ k) :
    expandLsb .keep v = expandLsb .zero v := by
  refine BitVec.eq_of_getLsbD_eq fun j hj => Bool.eq_iff_iff.2 ?_
  rw [expandLsb_keep_bit_iff v j hj, expandLsb_zero_bit_iff v j hj]
  exact or_iff_right_of_imp (no_lower_bit_of_zero_or_two_pow hv)

end

/-- Settles O21: the borrow of `v - 1` clears the lowest set bit alone. -/
theorem clrlsbClearsTheLowestSetBit : Obligations.ClrlsbClearsTheLowestSetBit :=
  ⟨answersAll_of_bits rfl (fun _ v _ _ => clrlsbResult_zext (by decide) v) fun v j _ => clearLsb_bit_iff v j,
    answersAll_of_bits rfl (fun _ v _ _ => clrlsbResult_zext (by decide) v) fun v j _ => clearLsb_bit_iff v j,
    widthChecked_of_operandWidths rfl rfl⟩

/-- Settles O22: both readings bit by bit; they differ only at a set bit with another below it. -/
theorem explsbExpandsTheLowestSetBitDownward : Obligations.ExplsbExpandsTheLowestSetBitDownward :=
  ⟨answersAll_of_operate rfl fun _ v _ _ =>
      ⟨_, bitsAre_zext (expandLsb_zero_bit_iff v), explsbResult_zext (by decide) v⟩,
    answersAll_of_operate rfl fun _ v _ _ =>
      ⟨_, bitsAre_zext (expandLsb_zero_bit_iff v), explsbResult_zext (by decide) v⟩,
    widthChecked_of_operandWidths rfl rfl,
    fun v => bitsAre_zext (expandLsb_keep_bit_iff v), fun v => bitsAre_zext (expandLsb_keep_bit_iff v),
    fun _ => expandLsb_keep_eq_zero, fun _ => expandLsb_keep_eq_zero⟩

/-- Settles O23: negation isolates the lowest set bit. -/
theorem lsbIsolatesTheLowestSetBit : Obligations.LsbIsolatesTheLowestSetBit :=
  ⟨answersAll_of_bits rfl (fun _ v _ _ => lsbResult_zext (by decide) v) fun v j _ => portableLsb_bit_iff v j,
    answersAll_of_bits rfl (fun _ v _ _ => lsbResult_zext (by decide) v) fun v j _ => portableLsb_bit_iff v j,
    widthChecked_of_operandWidths rfl rfl⟩

/-- Settles O24: negation keeps the lowest set bit and flips every bit above it, so the two together set them all. -/
theorem exphlsbExpandsTheLowestSetBitUpward : Obligations.ExphlsbExpandsTheLowestSetBitUpward :=
  ⟨answersAll_of_bits rfl (fun _ v _ _ => exphlsbResult_zext (by decide) v) expandHighLsb_bit_iff,
    answersAll_of_bits rfl (fun _ v _ _ => exphlsbResult_zext (by decide) v) expandHighLsb_bit_iff,
    widthChecked_of_operandWidths rfl rfl⟩

/-- Settles O25: the cascade reaches every bit below the highest set bit. -/
theorem expmsbExpandsTheHighestSetBitDownward : Obligations.ExpmsbExpandsTheHighestSetBitDownward :=
  ⟨answersAll_of_bits rfl (fun _ v _ _ => expmsbResult_zext (by decide) v)
      fun v j _ => portableExpmsb_bit_iff (by decide) v j,
    answersAll_of_bits rfl (fun _ v _ _ => expmsbResult_zext (by decide) v)
      fun v j _ => portableExpmsb_bit_iff (by decide) v j,
    widthChecked_of_operandWidths rfl rfl⟩

/-- Settles O26: for a nonzero operand the expanded mask less its upper half is the bit at `hiIdx`, and 0 is `UNDEF`. -/
theorem msbIsolatesTheHighestSetBit : Obligations.MsbIsolatesTheHighestSetBit :=
  ⟨answersOn_of_bits rfl (fun _ _ _ _ hv => msbResult_of_ne_zero (by decide) hv)
      fun _ hv j _ => portableMsb_bit_iff (by decide) hv j,
    answersOn_of_bits rfl (fun _ _ _ _ hv => msbResult_of_ne_zero (by decide) hv)
      fun _ hv j _ => portableMsb_bit_iff (by decide) hv j,
    widthChecked_of_operandWidths rfl rfl,
    undefOutside_of_operate rfl fun _ _ _ _ hv => ⟨.zeroInput, msbResult_of_not_ne_zero (by decide) hv⟩,
    undefOutside_of_operate rfl fun _ _ _ _ hv => ⟨.zeroInput, msbResult_of_not_ne_zero (by decide) hv⟩⟩

end Sys2Proof.Machine
end

/-! ## Indices and counts of the set bits: O27 to O33 -/
section

namespace Sys2Proof.Machine

section
variable {n : Nat} {v : BitVec n}

/-! ### The set bits of a value -/

/-- The indices of the bits of `v` that are 1: what `pop` counts. -/
def setBits (v : BitVec n) : Finset Nat := (Finset.range n).filter fun k => v.getLsbD k = true

@[simp] theorem mem_setBits {j : Nat} : j ∈ setBits v ↔ v.getLsbD j = true := by
  rw [setBits, Finset.mem_filter, Finset.mem_range]
  exact and_iff_right_of_imp BitVec.lt_of_getLsbD

theorem pop_eq_card_setBits (v : BitVec n) : pop v = (setBits v).card := pop_eq_card v

/-- A value is a power of two when the bit of the exponent is its only set bit. -/
theorem toNat_eq_two_pow_iff {k : Nat} : v.toNat = 2 ^ k ↔ setBits v = {k} := by
  rw [Finset.ext_iff]
  simp only [mem_setBits, Finset.mem_singleton, ← BitVec.testBit_toNat]
  constructor
  · intro h j
    rw [h, Nat.testBit_two_pow, decide_eq_true_iff, eq_comm]
  · intro h
    refine Nat.eq_of_testBit_eq fun j => Bool.eq_iff_iff.2 ?_
    rw [h, Nat.testBit_two_pow, decide_eq_true_iff, eq_comm]

theorem pop_eq_one_iff : pop v = 1 ↔ ∃ k, v.toNat = 2 ^ k := by
  simp only [pop_eq_card_setBits, Finset.card_eq_one, toNat_eq_two_pow_iff]

theorem loIdx_of_toNat_eq_two_pow {k : Nat} (h : v.toNat = 2 ^ k) : loIdx v = k := by
  have hk : v.getLsbD k = true := by rw [← mem_setBits, toNat_eq_two_pow_iff.1 h, Finset.mem_singleton]
  exact loIdx_eq hk (no_lower_bit_of_zero_or_two_pow (.inr ⟨k, h⟩) hk)

/-! ### Clearing the lowest set bit -/

theorem setBits_clearLsb (hv : v ≠ 0) : setBits (clearLsb v) = (setBits v).erase (loIdx v) := by
  obtain ⟨-, hset, hbelow⟩ := loIdx_spec hv
  ext j
  rw [mem_setBits, Finset.mem_erase, mem_setBits, clearLsb, clearLsb_bit_iff, and_comm, and_congr_left_iff]
  intro hj
  constructor
  · rintro ⟨k, hk, hvk⟩ rfl
    exact Bool.false_ne_true ((hbelow k hk).symm.trans hvk)
  · intro hne
    have hle : loIdx v ≤ j := Nat.le_of_not_lt fun hlt => Bool.false_ne_true ((hbelow j hlt).symm.trans hj)
    exact ⟨loIdx v, Nat.lt_of_le_of_ne hle hne.symm, hset⟩

theorem pop_clearLsb_add_one (hv : v ≠ 0) : pop (clearLsb v) + 1 = pop v := by
  rw [pop_eq_card_setBits, pop_eq_card_setBits, setBits_clearLsb hv]
  exact Finset.card_erase_add_one (mem_setBits.2 (loIdx_spec hv).2.1)

theorem pop_zero : pop (0 : BitVec n) = 0 := by simp [pop]

theorem pop_eq_zero_iff : pop v = 0 ↔ v = 0 := by
  constructor
  · intro h
    by_contra hv
    have := pop_clearLsb_add_one hv
    omega
  · rintro rfl
    exact pop_zero

/-- Kernighan's loop: each turn clears one set bit, so any fuel from `pop v` up is enough (R46). -/
theorem portablePopcnt_eq_pop {fuel : Nat} (h : pop v ≤ fuel) : portablePopcnt fuel v = pop v := by
  induction fuel generalizing v with
  | zero => exact (Nat.le_zero.1 h).symm
  | succ fuel ih =>
    rw [portablePopcnt]
    split
    next hv => rw [hv, pop_zero]
    next hv =>
      have hturn := pop_clearLsb_add_one hv
      rw [ih (by omega), hturn]

/-- Nothing is left after one clearing exactly when at most one bit was set. -/
theorem clearLsb_eq_zero_iff : clearLsb v = 0 ↔ v = 0 ∨ ∃ k, v.toNat = 2 ^ k := by
  by_cases hv : v = 0
  · exact iff_of_true (by rw [clearLsb, hv]; exact BitVec.zero_and) (.inl hv)
  · have hturn := pop_clearLsb_add_one hv
    rw [or_iff_right hv, ← pop_eq_one_iff, ← pop_eq_zero_iff]
    omega

/-! ### Expanded masks -/

theorem eq_ones_iff {m k : Nat} : m = ones k ↔ m + 1 = 2 ^ k := by
  have := Nat.two_pow_pos k
  rw [ones]
  omega

/-- Adding 1 wraps to 0 at the value with every bit set, and adds 1 to the number at any other. -/
theorem add_one_cases (v : BitVec n) :
    (v + 1 = 0 ∧ v.toNat + 1 = 2 ^ n) ∨ (v.toNat + 1 < 2 ^ n ∧ (v + 1).toNat = v.toNat + 1) := by
  have hadd : (v + 1).toNat = (v.toNat + 1) % 2 ^ n := by
    rw [BitVec.toNat_add, BitVec.ofNat_eq_ofNat, BitVec.toNat_ofNat, Nat.add_mod_mod]
  rcases Nat.lt_or_eq_of_le (show v.toNat + 1 ≤ 2 ^ n from v.isLt) with h | h
  · exact .inr ⟨h, by rw [hadd, Nat.mod_eq_of_lt h]⟩
  · exact .inl ⟨BitVec.eq_of_toNat_eq (by rw [hadd, h, Nat.mod_self]; rfl), h⟩

theorem add_one_zero_or_two_pow_iff :
    (v + 1 = 0 ∨ ∃ k, (v + 1).toNat = 2 ^ k) ↔ ∃ k, v.toNat = ones k := by
  simp only [eq_ones_iff]
  rcases add_one_cases v with ⟨hwrap, htop⟩ | ⟨-, hadd⟩
  · exact iff_of_true (.inl hwrap) ⟨n, htop⟩
  · have hne : v + 1 ≠ 0 := fun h => by rw [h] at hadd; simp at hadd
    rw [or_iff_right hne, hadd]

/-- The test of R39 clears the lowest set bit of `v + 1`: nothing is left when that is a power of two or wraps to 0. -/
theorem isExpandedMask_iff : isExpandedMask v = true ↔ ∃ k, v.toNat = ones (k + 1) := by
  have hclear : v &&& (v + 1) = clearLsb (v + 1) := by
    rw [clearLsb, BitVec.and_comm, show v + 1 - 1 = v from BitVec.add_sub_cancel v 1]
  rw [isExpandedMask, Bool.and_eq_true, decide_eq_true_iff, beq_iff_eq, hclear, clearLsb_eq_zero_iff,
    add_one_zero_or_two_pow_iff]
  constructor
  · rintro ⟨hv, _ | k, hk⟩
    · exact absurd (BitVec.eq_of_toNat_eq hk) hv
    · exact ⟨k, hk⟩
  · rintro ⟨k, hk⟩
    refine ⟨?_, k + 1, hk⟩
    rintro rfl
    simp [eq_ones_iff, eq_comm (a := 1)] at hk

theorem hiIdx_ones (k : Nat) : hiIdx (ones (k + 1)) = k := by
  have hpos := Nat.two_pow_pos k
  rw [hiIdx, ones, Nat.log2_eq_iff (by rw [Nat.pow_succ]; omega), Nat.pow_succ]
  omega

/-! ### Reversing the bits -/

theorem reverseBits_bit_iff (v : BitVec n) (j : Nat) (hj : j < n) :
    (reverseBits v).getLsbD j = true ↔ v.getLsbD (n - 1 - j) = true := by
  rw [getLsbD_reverseBits, decide_eq_true hj, Bool.true_and]

theorem reverseBits_reverseBits (v : BitVec n) : reverseBits (reverseBits v) = v := by
  refine BitVec.eq_of_getLsbD_eq fun j hj => Bool.eq_iff_iff.2 ?_
  rw [reverseBits_bit_iff _ j hj, reverseBits_bit_iff v _ (by omega), Nat.sub_sub_self (by omega)]

/-! ### What each operation answers on an operand within the width -/

theorem idxbitResult_of_two_pow (hn : n ≤ 64) (hv : ∃ k, v.toNat = 2 ^ k) :
    idxbitResult n (zext v) = .ok (word (loIdx v)) := by
  rw [idxbitResult, withOperand_zext hn, if_pos (pop_eq_one_iff.2 hv)]

theorem idxbitResult_of_not_two_pow (hn : n ≤ 64) (hv : ¬ ∃ k, v.toNat = 2 ^ k) :
    idxbitResult n (zext v) = .error .notSingleBit := by
  rw [idxbitResult, withOperand_zext hn, if_neg (mt pop_eq_one_iff.1 hv)]

theorem idxexpResult_of_ones (hn : n ≤ 64) (hv : ∃ k, v.toNat = ones (k + 1)) :
    idxexpResult n (zext v) = .ok (word (hiIdx v.toNat)) := by
  rw [idxexpResult, withOperand_zext hn, if_pos (isExpandedMask_iff.2 hv)]

theorem idxexpResult_of_not_ones (hn : n ≤ 64) (hv : ¬ ∃ k, v.toNat = ones (k + 1)) :
    idxexpResult n (zext v) = .error .notExpandedMask := by
  rw [idxexpResult, withOperand_zext hn, if_neg (mt isExpandedMask_iff.1 hv)]

theorem lowestIndexResult_of_ne_zero (hn : n ≤ 64) (hv : v ≠ 0) :
    lowestIndexResult n (zext v) = .ok (word (loIdx v)) := by
  rw [lowestIndexResult, withOperand_zext hn, if_neg hv]

theorem lowestIndexResult_of_not_ne_zero (hn : n ≤ 64) (hv : ¬ v ≠ 0) :
    lowestIndexResult n (zext v) = .error .zeroInput := by
  rw [lowestIndexResult, withOperand_zext hn, if_pos (not_not.1 hv)]

theorem lzcntResult_of_ne_zero (hn : n ≤ 64) (hv : v ≠ 0) :
    lzcntResult n (zext v) = .ok (word (n - 1 - hiIdx v.toNat)) := by
  rw [lzcntResult, withOperand_zext hn, if_neg hv]

theorem lzcntResult_of_not_ne_zero (hn : n ≤ 64) (hv : ¬ v ≠ 0) : lzcntResult n (zext v) = .error .zeroInput := by
  rw [lzcntResult, withOperand_zext hn, if_pos (not_not.1 hv)]

theorem highestIndexResult_of_ne_zero (hn : n ≤ 64) (hv : v ≠ 0) :
    highestIndexResult n (zext v) = .ok (word (hiIdx v.toNat)) := by
  rw [highestIndexResult, withOperand_zext hn, if_neg hv]

theorem highestIndexResult_of_not_ne_zero (hn : n ≤ 64) (hv : ¬ v ≠ 0) :
    highestIndexResult n (zext v) = .error .zeroInput := by
  rw [highestIndexResult, withOperand_zext hn, if_pos (not_not.1 hv)]

theorem brevResult_zext (hn : n ≤ 64) (v : BitVec n) : brevResult n (zext v) = .ok (zext (reverseBits v)) :=
  withOperand_zext hn v

theorem popcntResult_zext (hn : n ≤ 64) (v : BitVec n) : popcntResult n (zext v) = .ok (word (pop v)) :=
  withOperand_zext hn v

end

/-! ### The contracts, for an operation of either width -/

section
variable {i : Instr} {n : Nat}

/-- A count or an index of at most 64 is on port `R` as it is. -/
theorem toNat_word_of_le {k : Nat} (hn : n ≤ 64) (hk : k ≤ n) : (word k).toNat = k :=
  toNat_word (Nat.lt_of_le_of_lt (hk.trans hn) (by decide))

/-- An operation that answers a count or an index keeps its contract when the rule holds of the number on port `R`. -/
theorem answersOn_of_index {domain : BitVec n → Prop} {index : BitVec n → Nat} {result : BitVec n → Word → Prop}
    (hi : i.wf = true) (hn : n ≤ 64)
    (hop : ∀ draw v b c, domain v → operate i draw (zext v) b c = .ok (word (index v)))
    (hle : ∀ v, domain v → index v ≤ n)
    (hresult : ∀ v r, domain v → r.toNat = index v → result v r) : AnswersOn i n domain result :=
  answersOn_of_operate hi fun draw v b c hv =>
    ⟨word (index v), hresult v _ hv (toNat_word_of_le hn (hle v hv)), hop draw v b c hv⟩

variable (hi : i.wf = true) (hn : n ≤ 64)
include hi hn

theorem answersOn_idxbit (hop : ∀ draw a b c, operate i draw a b c = idxbitResult n a) :
    AnswersOn i n (fun v => ∃ k, v.toNat = 2 ^ k) fun v r => v.toNat = 2 ^ r.toNat ∧ r.toNat < n := by
  have hlt (v : BitVec n) (hv : ∃ k, v.toNat = 2 ^ k) : loIdx v < n :=
    (loIdx_spec (ne_zero_of_pop_eq_one (pop_eq_one_iff.2 hv))).1
  refine answersOn_of_index hi hn (fun _ _ _ _ hv => (hop ..).trans (idxbitResult_of_two_pow hn hv))
    (fun v hv => (hlt v hv).le) fun v r hv hr => ?_
  rw [hr]
  obtain ⟨k, hk⟩ := hv
  exact ⟨by rw [loIdx_of_toNat_eq_two_pow hk, hk], hlt v ⟨k, hk⟩⟩

theorem undefOutside_idxbit (hop : ∀ draw a b c, operate i draw a b c = idxbitResult n a) :
    UndefOutside i n fun v => ∃ k, v.toNat = 2 ^ k :=
  undefOutside_of_operate hi fun _ _ _ _ hv => ⟨_, (hop ..).trans (idxbitResult_of_not_two_pow hn hv)⟩

theorem answersOn_idxexp (hop : ∀ draw a b c, operate i draw a b c = idxexpResult n a) :
    AnswersOn i n (fun v => ∃ k, v.toNat = ones (k + 1)) fun v r => v.toNat = ones (r.toNat + 1) ∧ r.toNat < n := by
  have hlt (v : BitVec n) (hv : ∃ k, v.toNat = ones (k + 1)) : hiIdx v.toNat < n :=
    hiIdx_lt (ne_zero_of_isExpandedMask (isExpandedMask_iff.2 hv))
  refine answersOn_of_index hi hn (fun _ _ _ _ hv => (hop ..).trans (idxexpResult_of_ones hn hv))
    (fun v hv => (hlt v hv).le) fun v r hv hr => ?_
  rw [hr]
  obtain ⟨k, hk⟩ := hv
  exact ⟨by rw [hk, hiIdx_ones], hlt v ⟨k, hk⟩⟩

theorem undefOutside_idxexp (hop : ∀ draw a b c, operate i draw a b c = idxexpResult n a) :
    UndefOutside i n fun v => ∃ k, v.toNat = ones (k + 1) :=
  undefOutside_of_operate hi fun _ _ _ _ hv => ⟨_, (hop ..).trans (idxexpResult_of_not_ones hn hv)⟩

theorem answersOn_lowestIndex (hop : ∀ draw a b c, operate i draw a b c = lowestIndexResult n a) :
    AnswersOn i n (fun v => v ≠ 0) fun v r =>
      r.toNat < n ∧ v.getLsbD r.toNat = true ∧ ∀ k < r.toNat, v.getLsbD k = false := by
  refine answersOn_of_index hi hn (fun _ _ _ _ hv => (hop ..).trans (lowestIndexResult_of_ne_zero hn hv))
    (fun v hv => (loIdx_spec hv).1.le) fun v r hv hr => ?_
  rw [hr]
  exact loIdx_spec hv

theorem undefOutside_lowestIndex (hop : ∀ draw a b c, operate i draw a b c = lowestIndexResult n a) :
    UndefOutside i n fun v => v ≠ 0 :=
  undefOutside_of_operate hi fun _ _ _ _ hv => ⟨_, (hop ..).trans (lowestIndexResult_of_not_ne_zero hn hv)⟩

theorem answersOn_lzcnt (hop : ∀ draw a b c, operate i draw a b c = lzcntResult n a) :
    AnswersOn i n (fun v => v ≠ 0) fun v r =>
      r.toNat < n ∧ v.getLsbD (n - 1 - r.toNat) = true ∧ ∀ k, n - 1 - r.toNat < k → v.getLsbD k = false := by
  refine answersOn_of_index hi hn (fun _ _ _ _ hv => (hop ..).trans (lzcntResult_of_ne_zero hn hv))
    (fun v _ => by omega) fun v r hv hr => ?_
  have hlt := hiIdx_lt hv
  have hidx : n - 1 - r.toNat = hiIdx v.toNat := by omega
  rw [hidx]
  exact ⟨by omega, getLsbD_hiIdx hv⟩

theorem undefOutside_lzcnt (hop : ∀ draw a b c, operate i draw a b c = lzcntResult n a) :
    UndefOutside i n fun v => v ≠ 0 :=
  undefOutside_of_operate hi fun _ _ _ _ hv => ⟨_, (hop ..).trans (lzcntResult_of_not_ne_zero hn hv)⟩

theorem answersOn_highestIndex (hop : ∀ draw a b c, operate i draw a b c = highestIndexResult n a) :
    AnswersOn i n (fun v => v ≠ 0) fun v r =>
      v.getLsbD r.toNat = true ∧ 2 ^ r.toNat ≤ v.toNat ∧ v.toNat < 2 ^ (r.toNat + 1) := by
  refine answersOn_of_index hi hn (fun _ _ _ _ hv => (hop ..).trans (highestIndexResult_of_ne_zero hn hv))
    (fun v hv => (hiIdx_lt hv).le) fun v r hv hr => ?_
  rw [hr]
  exact ⟨(getLsbD_hiIdx hv).1, hiIdx_spec fun h => hv (BitVec.eq_of_toNat_eq h)⟩

theorem undefOutside_highestIndex (hop : ∀ draw a b c, operate i draw a b c = highestIndexResult n a) :
    UndefOutside i n fun v => v ≠ 0 :=
  undefOutside_of_operate hi fun _ _ _ _ hv => ⟨_, (hop ..).trans (highestIndexResult_of_not_ne_zero hn hv)⟩

theorem answersAll_brev (hop : ∀ draw a b c, operate i draw a b c = brevResult n a) :
    AnswersAll i n fun v r => BitsAre n r fun j => v.getLsbD (n - 1 - j) = true :=
  answersAll_of_operate hi fun _ v _ _ =>
    ⟨_, bitsAre_zext (reverseBits_bit_iff v), (hop ..).trans (brevResult_zext hn v)⟩

theorem answersAll_popcnt (hop : ∀ draw a b c, operate i draw a b c = popcntResult n a) :
    AnswersAll i n fun v r => r.toNat = ((Finset.range n).filter fun k => v.getLsbD k = true).card
      ∧ r.toNat = portablePopcnt n v := by
  refine answersAll_of_operate hi fun _ v _ _ => ⟨word (pop v), ?_, (hop ..).trans (popcntResult_zext hn v)⟩
  rw [toNat_word_of_le hn (pop_le v)]
  exact ⟨pop_eq_card v, (portablePopcnt_eq_pop (pop_le v)).symm⟩

end

/-- Settles O27: one set bit makes the value the power of two at the lowest set bit. -/
theorem idxbitIndexesTheSingleBit : Obligations.IdxbitIndexesTheSingleBit :=
  ⟨answersOn_idxbit rfl (by decide) fun _ _ _ _ => rfl, answersOn_idxbit rfl (by decide) fun _ _ _ _ => rfl,
    widthChecked_of_operandWidths rfl rfl,
    undefOutside_idxbit rfl (by decide) fun _ _ _ _ => rfl, undefOutside_idxbit rfl (by decide) fun _ _ _ _ => rfl⟩

/-- Settles O28: the test of R39 holds of the expanded masks alone, and the highest set bit of one is its index. -/
theorem idxexpIndexesTheTopOfAnExpandedMask : Obligations.IdxexpIndexesTheTopOfAnExpandedMask :=
  ⟨answersOn_idxexp rfl (by decide) fun _ _ _ _ => rfl, answersOn_idxexp rfl (by decide) fun _ _ _ _ => rfl,
    widthChecked_of_operandWidths rfl rfl,
    undefOutside_idxexp rfl (by decide) fun _ _ _ _ => rfl, undefOutside_idxexp rfl (by decide) fun _ _ _ _ => rfl⟩

/-- Settles O29: both operations answer `loIdx`, the least index of a set bit. -/
theorem tzcntAndIdxlsbFindTheLowestSetBit : Obligations.TzcntAndIdxlsbFindTheLowestSetBit :=
  ⟨answersOn_lowestIndex rfl (by decide) fun _ _ _ _ => rfl,
    answersOn_lowestIndex rfl (by decide) fun _ _ _ _ => rfl,
    widthChecked_of_operandWidths rfl rfl,
    undefOutside_lowestIndex rfl (by decide) fun _ _ _ _ => rfl,
    undefOutside_lowestIndex rfl (by decide) fun _ _ _ _ => rfl,
    answersOn_lowestIndex rfl (by decide) fun _ _ _ _ => rfl,
    answersOn_lowestIndex rfl (by decide) fun _ _ _ _ => rfl,
    widthChecked_of_operandWidths rfl rfl,
    undefOutside_lowestIndex rfl (by decide) fun _ _ _ _ => rfl,
    undefOutside_lowestIndex rfl (by decide) fun _ _ _ _ => rfl⟩

/-- Settles O30: counting down from the top of the width by the answer gives `hiIdx`. -/
theorem lzcntCountsZerosAboveTheHighestSetBit : Obligations.LzcntCountsZerosAboveTheHighestSetBit :=
  ⟨answersOn_lzcnt rfl (by decide) fun _ _ _ _ => rfl, answersOn_lzcnt rfl (by decide) fun _ _ _ _ => rfl,
    widthChecked_of_operandWidths rfl rfl,
    undefOutside_lzcnt rfl (by decide) fun _ _ _ _ => rfl, undefOutside_lzcnt rfl (by decide) fun _ _ _ _ => rfl⟩

/-- Settles O31: both operations answer `hiIdx`, which brackets the value between powers of two. -/
theorem idxmsbAndLog2FindTheHighestSetBit : Obligations.IdxmsbAndLog2FindTheHighestSetBit :=
  ⟨answersOn_highestIndex rfl (by decide) fun _ _ _ _ => rfl,
    answersOn_highestIndex rfl (by decide) fun _ _ _ _ => rfl,
    widthChecked_of_operandWidths rfl rfl,
    undefOutside_highestIndex rfl (by decide) fun _ _ _ _ => rfl,
    undefOutside_highestIndex rfl (by decide) fun _ _ _ _ => rfl,
    answersOn_highestIndex rfl (by decide) fun _ _ _ _ => rfl,
    answersOn_highestIndex rfl (by decide) fun _ _ _ _ => rfl,
    widthChecked_of_operandWidths rfl rfl,
    undefOutside_highestIndex rfl (by decide) fun _ _ _ _ => rfl,
    undefOutside_highestIndex rfl (by decide) fun _ _ _ _ => rfl⟩

/-- Settles O32: index `j` goes to `n - 1 - j`, and back when it is done twice. -/
theorem brevReversesTheBits : Obligations.BrevReversesTheBits :=
  ⟨answersAll_brev rfl (by decide) fun _ _ _ _ => rfl, answersAll_brev rfl (by decide) fun _ _ _ _ => rfl,
    widthChecked_of_operandWidths rfl rfl, reverseBits_reverseBits, reverseBits_reverseBits⟩

/-- Settles O33: each turn of Kernighan's loop clears one set bit, and there are at most `n` of them. -/
theorem popcntCountsTheSetBits : Obligations.PopcntCountsTheSetBits :=
  ⟨answersAll_popcnt rfl (by decide) fun _ _ _ _ => rfl, answersAll_popcnt rfl (by decide) fun _ _ _ _ => rfl,
    widthChecked_of_operandWidths rfl rfl⟩

end Sys2Proof.Machine
end

/-! ## Fields, interleaving and selection: O34 to O38 -/
section

namespace Sys2Proof.Machine

section
variable {i : Instr} {n m : Nat} {s : State}

/-! ### Contracts that name more than port `A` -/

theorem exec_of_operate_ok {r : Word} (hi : i.wf = true) (h : operate i s.draws s.a s.b s.c = .ok r) :
    exec i s = .next (s.answerOk r) := by
  rw [exec_of_wf hi, h, State.answer_ok]

theorem exec_of_operate_error {reason : UndefReason} (hi : i.wf = true)
    (h : operate i s.draws s.a s.b s.c = .error reason) : exec i s = .next (s.raise .undef) := by
  rw [exec_of_wf hi, h, State.answer_error]

theorem exec_of_operandTooWide (hi : i.wf = true) (h : OperandTooWide i s.a s.b s.c) :
    exec i s = .next (s.raise .undef) :=
  exec_of_operate_error hi (operate_of_operandTooWide s.draws h)

/-- A result narrower than the value it is the zero extension of. -/
theorem bitsAre_zext_of_narrow {w : BitVec n} {g : Nat → Prop} (h : ∀ j, w.getLsbD j = true ↔ j < m ∧ g j) :
    BitsAre m (zext w) g := by
  intro j hj
  rw [getLsbD_zext, decide_eq_true hj, Bool.true_and, h]

/-! ### The bits of each result -/

/-- The mask `ones size` keeps the low `size` bits; the shift brings bit `offset + j` to bit `j` (R47). -/
theorem extractField_bit_iff {offset size : Nat} (hfield : offset + size ≤ n) (v : BitVec n) (j : Nat) :
    ((v >>> offset) &&& BitVec.ofNat n (ones size)).getLsbD j = true ↔ j < size ∧ v.getLsbD (offset + j) = true := by
  rw [BitVec.getLsbD_and, BitVec.getLsbD_ushiftRight, BitVec.getLsbD_ofNat, ones, Nat.testBit_two_pow_sub_one]
  simp only [Bool.and_eq_true, decide_eq_true_eq]
  constructor
  · rintro ⟨hbit, -, hsize⟩
    exact ⟨hsize, hbit⟩
  · rintro ⟨hsize, hbit⟩
    exact ⟨hbit, by omega, hsize⟩

theorem deinterleave_bit_iff (v : BitVec n) (j : Nat) (hj : j < n / 2) :
    (deinterleave v).getLsbD j = true ↔ v.getLsbD (2 * j) = true := by
  rw [getLsbD_deinterleave, decide_eq_true hj, Bool.true_and]

theorem interleave_bit_iff (x y : BitVec (n / 2)) (j : Nat) (hj : j < n) :
    (interleave n x y).getLsbD j = true
      ↔ if j % 2 = 0 then x.getLsbD (j / 2) = true else y.getLsbD (j / 2) = true := by
  rw [getLsbD_interleave, decide_eq_true hj, Bool.true_and, Bool.ite_eq_true_distrib]

theorem interleave_zero_bit_iff (v : BitVec (n / 2)) (j : Nat) (hj : j < n) :
    (interleave n v 0).getLsbD j = true ↔ j % 2 = 0 ∧ v.getLsbD (j / 2) = true := by
  rw [interleave_bit_iff v 0 j hj]
  split <;> simp [*]

theorem bitSelect_bit_iff (mask x y : BitVec n) (j : Nat) :
    (bitSelect mask x y).getLsbD j = true
      ↔ if mask.getLsbD j = true then x.getLsbD j = true else y.getLsbD j = true := by
  rw [getLsbD_bitSelect, Bool.ite_eq_true_distrib]

/-! ### The even and the odd slots (R48 to R50) -/

@[simp] theorem getLsbD_interleave_even (x y : BitVec (n / 2)) (j : Nat) :
    (interleave n x y).getLsbD (2 * j) = x.getLsbD j := by
  have hslot : 2 * j / 2 = j := by omega
  rw [getLsbD_interleave, if_pos (Nat.mul_mod_right 2 j), hslot]
  by_cases hj : 2 * j < n
  · rw [decide_eq_true hj, Bool.true_and]
  · rw [BitVec.getLsbD_of_ge x j (by omega), Bool.and_false]

@[simp] theorem getLsbD_interleave_odd (x y : BitVec (n / 2)) (j : Nat) :
    (interleave n x y).getLsbD (2 * j + 1) = y.getLsbD j := by
  have hslot : (2 * j + 1) / 2 = j := by omega
  rw [getLsbD_interleave, if_neg (by omega), hslot]
  by_cases hj : 2 * j + 1 < n
  · rw [decide_eq_true hj, Bool.true_and]
  · rw [BitVec.getLsbD_of_ge y j (by omega), Bool.and_false]

/-- DEINTL reads the even slots alone. -/
theorem deinterleave_interleave (x y : BitVec (n / 2)) : deinterleave (interleave n x y) = x := by
  refine BitVec.eq_of_getLsbD_eq fun j hj => ?_
  rw [getLsbD_deinterleave, getLsbD_interleave_even, decide_eq_true hj, Bool.true_and]

/-- A shift by one brings the odd slots to the even ones. -/
theorem deinterleave_interleave_ushiftRight_one (x y : BitVec (n / 2)) :
    deinterleave (interleave n x y >>> 1) = y := by
  refine BitVec.eq_of_getLsbD_eq fun j hj => ?_
  rw [getLsbD_deinterleave, BitVec.getLsbD_ushiftRight, Nat.add_comm 1, getLsbD_interleave_odd, decide_eq_true hj,
    Bool.true_and]

/-- Of the two terms of the printed form, one is zero in the odd slots and the other in the even ones (R50). -/
theorem portableIntl2_eq_interleave (x y : BitVec (n / 2)) : portableIntl2 n x y = interleave n x y := by
  refine BitVec.eq_of_getLsbD_eq fun j hj => ?_
  rw [portableIntl2, BitVec.getLsbD_or, BitVec.getLsbD_shiftLeft, decide_eq_true hj, Bool.true_and]
  obtain ⟨k, rfl | rfl⟩ := j.even_or_odd'
  · rw [getLsbD_interleave_even, getLsbD_interleave_even]
    cases k with
    | zero => simp
    | succ k =>
      have hbelow : 2 * (k + 1) - 1 = 2 * k + 1 := by omega
      simp [hbelow]
  · simp

/-- Both forms of R51 take bit `j` of `x` where the mask bit is 1 and of `y` where it is 0. -/
theorem portableSel_eq_bitSelect (mask x y : BitVec n) : portableSel mask x y = bitSelect mask x y := by
  refine BitVec.eq_of_getLsbD_eq fun j hj => ?_
  rw [portableSel, getLsbD_bitSelect, BitVec.getLsbD_or, BitVec.getLsbD_and, BitVec.getLsbD_and, BitVec.getLsbD_not,
    decide_eq_true hj, Bool.true_and]
  cases mask.getLsbD j <;> simp

/-! ### What each operation answers on operands within the width -/

theorem bextResult_of_le (hn : n ≤ 64) {b c : Word} (hfield : b.toNat + c.toNat ≤ n) (v : BitVec n) :
    bextResult n (zext v) b c = .ok (zext ((v >>> b.toNat) &&& BitVec.ofNat n (ones c.toNat))) := by
  rw [bextResult, withOperand_zext hn, if_pos hfield]

/-- Out of range is an error whether or not the operand is too wide as well. -/
theorem bextResult_of_lt {b c : Word} (hfield : n < b.toNat + c.toNat) (a : Word) :
    ∃ reason, bextResult n a b c = .error reason := by
  obtain ⟨-, h⟩ | ⟨-, h⟩ := withOperand_cases (n := n) a
  · exact ⟨_, h.trans (if_neg (Nat.not_le.2 hfield))⟩
  · exact ⟨_, h⟩

theorem deintlResult_zext (hn : n ≤ 64) (v : BitVec n) : deintlResult n (zext v) = .ok (zext (deinterleave v)) :=
  withOperand_zext hn v

theorem intl1Result_zext (hn : n / 2 ≤ 64) (v : BitVec (n / 2)) :
    intl1Result n (zext v) = .ok (zext (interleave n v 0)) :=
  withOperand_zext hn v

theorem intl2Result_zext (hn : n / 2 ≤ 64) (x y : BitVec (n / 2)) :
    intl2Result n (zext x) (zext y) = .ok (zext (portableIntl2 n x y)) := by
  rw [intl2Result, withOperand_zext hn, withOperand_zext hn, portableIntl2_eq_interleave]

theorem selResult_zext (hn : n ≤ 64) (mask x y : BitVec n) :
    selResult n (zext mask) (zext x) (zext y) = .ok (zext (portableSel mask x y)) := by
  rw [selResult, withOperand_zext hn, withOperand_zext hn, withOperand_zext hn, portableSel_eq_bitSelect]

end

/-! ### The contracts, for an operation of either width -/

section
variable {i : Instr} {n : Nat} (hi : i.wf = true)
include hi

theorem exec_bext (hn : n ≤ 64) (hop : ∀ draw a b c, operate i draw a b c = bextResult n a b c)
    (s : State) (v : BitVec n) (ha : s.a = zext v) (hfield : s.b.toNat + s.c.toNat ≤ n) :
    ∃ r, BitsAre s.c.toNat r (fun j => v.getLsbD (s.b.toNat + j) = true) ∧ exec i s = .next (s.answerOk r) := by
  refine ⟨_, bitsAre_zext_of_narrow (extractField_bit_iff hfield v), exec_of_operate_ok hi ?_⟩
  rw [hop, ha, bextResult_of_le hn hfield]

theorem exec_bext_out_of_range (hop : ∀ draw a b c, operate i draw a b c = bextResult n a b c)
    (s : State) (hfield : n < s.b.toNat + s.c.toNat) : exec i s = .next (s.raise .undef) := by
  obtain ⟨reason, h⟩ := bextResult_of_lt hfield s.a
  exact exec_of_operate_error hi ((hop ..).trans h)

theorem answersAll_deintl (hn : n ≤ 64) (hop : ∀ draw a b c, operate i draw a b c = deintlResult n a) :
    AnswersAll i n fun v r => BitsAre (n / 2) r fun j => v.getLsbD (2 * j) = true :=
  answersAll_of_operate hi fun _ v _ _ =>
    ⟨_, bitsAre_zext (deinterleave_bit_iff v), (hop ..).trans (deintlResult_zext hn v)⟩

theorem answersAll_intl1 (hn : n / 2 ≤ 64) (hop : ∀ draw a b c, operate i draw a b c = intl1Result n a) :
    AnswersAll i (n / 2) fun v r => BitsAre n r fun j => j % 2 = 0 ∧ v.getLsbD (j / 2) = true :=
  answersAll_of_operate hi fun _ v _ _ =>
    ⟨_, bitsAre_zext (interleave_zero_bit_iff v), (hop ..).trans (intl1Result_zext hn v)⟩

theorem exec_intl2 (hn : n / 2 ≤ 64) (hop : ∀ draw a b c, operate i draw a b c = intl2Result n a b)
    (s : State) (x y : BitVec (n / 2)) (ha : s.a = zext x) (hb : s.b = zext y) :
    ∃ r, r = zext (portableIntl2 n x y)
      ∧ BitsAre n r (fun j => if j % 2 = 0 then x.getLsbD (j / 2) = true else y.getLsbD (j / 2) = true)
      ∧ exec i s = .next (s.answerOk r) := by
  refine ⟨_, rfl, ?_, exec_of_operate_ok hi ?_⟩
  · rw [portableIntl2_eq_interleave]
    exact bitsAre_zext (interleave_bit_iff x y)
  · rw [hop, ha, hb, intl2Result_zext hn]

theorem exec_sel (hn : n ≤ 64) (hop : ∀ draw a b c, operate i draw a b c = selResult n a b c)
    (s : State) (mask x y : BitVec n) (ha : s.a = zext mask) (hb : s.b = zext x) (hc : s.c = zext y) :
    ∃ r, r = zext (portableSel mask x y)
      ∧ BitsAre n r (fun j => if mask.getLsbD j = true then x.getLsbD j = true else y.getLsbD j = true)
      ∧ exec i s = .next (s.answerOk r) := by
  refine ⟨_, rfl, ?_, exec_of_operate_ok hi ?_⟩
  · rw [portableSel_eq_bitSelect]
    exact bitsAre_zext fun j _ => bitSelect_bit_iff mask x y j
  · rw [hop, ha, hb, hc, selResult_zext hn]

end

/-- Settles O34: the shift brings the field to bit 0 and the mask clears what is above it. -/
theorem bextExtractsTheField : Obligations.BextExtractsTheField :=
  ⟨exec_bext rfl (by decide) fun _ _ _ _ => rfl, exec_bext_out_of_range rfl fun _ _ _ _ => rfl,
    exec_bext rfl (by decide) fun _ _ _ _ => rfl, exec_bext_out_of_range rfl fun _ _ _ _ => rfl,
    widthChecked_of_operandWidths rfl rfl⟩

/-- Settles O35: the result is built from the even slots. -/
theorem deintlGathersTheEvenSlots : Obligations.DeintlGathersTheEvenSlots :=
  ⟨answersAll_deintl rfl (by decide) fun _ _ _ _ => rfl, answersAll_deintl rfl (by decide) fun _ _ _ _ => rfl,
    widthChecked_of_operandWidths rfl rfl⟩

/-- Settles O36: INTL1 interleaves with 0, and DEINTL reads back the even slots. -/
theorem intl1ScattersIntoTheEvenSlots : Obligations.Intl1ScattersIntoTheEvenSlots :=
  ⟨answersAll_intl1 (n := 32) rfl (by decide) fun _ _ _ _ => rfl,
    answersAll_intl1 (n := 64) rfl (by decide) fun _ _ _ _ => rfl,
    widthChecked_of_operandWidths rfl rfl, widthChecked_of_operandWidths rfl rfl,
    fun v => deinterleave_interleave (n := 32) v 0, fun v => deinterleave_interleave (n := 64) v 0⟩

/-- Settles O37: the even slots are those of `x`, the odd ones those of `y`, and a shift by one makes the odd slots even. -/
theorem intl2InterleavesTwoHalves : Obligations.Intl2InterleavesTwoHalves :=
  ⟨exec_intl2 (n := 32) rfl (by decide) fun _ _ _ _ => rfl, exec_intl2 (n := 64) rfl (by decide) fun _ _ _ _ => rfl,
    fun _ h => exec_of_operandTooWide rfl ((operandTooWide_two rfl).2 h),
    fun _ h => exec_of_operandTooWide rfl ((operandTooWide_two rfl).2 h),
    fun x y => ⟨deinterleave_interleave (n := 32) x y, deinterleave_interleave_ushiftRight_one (n := 32) x y⟩,
    fun x y => ⟨deinterleave_interleave (n := 64) x y, deinterleave_interleave_ushiftRight_one (n := 64) x y⟩⟩

/-- Settles O38: the two printed forms agree bit by bit, whatever the mask. -/
theorem selSelectsBitByBit : Obligations.SelSelectsBitByBit :=
  ⟨exec_sel rfl (by decide) fun _ _ _ _ => rfl, exec_sel rfl (by decide) fun _ _ _ _ => rfl,
    fun _ h => exec_of_operandTooWide rfl ((operandTooWide_three rfl).2 h)⟩

end Sys2Proof.Machine
end

/-! ## Predicates and powers of two: O39 to O42 -/
section

namespace Sys2Proof.Machine

section
variable {n k : Nat}

/-! ### Lanes of a difference and of a complement -/

/-- The bits below lane `k + 1` are lane `k` above the bits below lane `k`. -/
theorem toNat_mod_lane_succ (v : BitVec n) (k : Nat) :
    v.toNat % 2 ^ (8 * (k + 1)) = v.toNat % 2 ^ (8 * k) + 2 ^ (8 * k) * (lane v k).toNat := by
  rw [toNat_lane, Nat.mul_succ, Nat.pow_add, Nat.mod_mul]

/-- Where no lane of `w` is above that of `v`, the subtraction `v - w` borrows nothing from lane `k`. -/
theorem toNat_mod_le_of_lane_le {v w : BitVec n} (h : ∀ j < k, (lane w j).toNat ≤ (lane v j).toNat) :
    w.toNat % 2 ^ (8 * k) ≤ v.toNat % 2 ^ (8 * k) := by
  induction k with
  | zero => simp [Nat.mod_one]
  | succ k ih =>
    rw [toNat_mod_lane_succ, toNat_mod_lane_succ]
    exact Nat.add_le_add (ih fun j hj => h j (by omega)) (Nat.mul_le_mul_left _ (h k (by omega)))

/-- A lane nothing is borrowed from is the difference of the two lanes. -/
theorem lane_sub_of_mod_le {v w : BitVec n} (hk : k < n / 8)
    (h : w.toNat % 2 ^ (8 * k) ≤ v.toNat % 2 ^ (8 * k)) : lane (v - w) k = lane v k - lane w k := by
  obtain ⟨m, rfl⟩ : ∃ m, n = 8 * k + (8 + m) := ⟨n - 8 * k - 8, by omega⟩
  have hpos := Nat.two_pow_pos (8 * k)
  have hsplit : 2 ^ (8 * k + (8 + m)) = 2 ^ (8 * k) * (2 ^ 8 * 2 ^ m) := by rw [Nat.pow_add, Nat.pow_add]
  have hwlt : w.toNat < 2 ^ (8 * k) * (2 ^ 8 * 2 ^ m) := hsplit ▸ w.isLt
  obtain ⟨d, hd⟩ := Nat.exists_eq_add_of_le (Nat.div_lt_of_lt_mul hwlt).le
  have hquot : (2 ^ (8 * k) * (2 ^ 8 * 2 ^ m) - w.toNat + v.toNat) / 2 ^ (8 * k) = d + v.toNat / 2 ^ (8 * k) := by
    have hv := Nat.div_add_mod v.toNat (2 ^ (8 * k))
    have hw := Nat.div_add_mod w.toNat (2 ^ (8 * k))
    have hrem := Nat.mod_lt v.toNat hpos
    rw [hd, Nat.mul_add] at hwlt ⊢
    rw [Nat.div_eq_iff hpos, Nat.add_mul, Nat.mul_comm d, Nat.mul_comm (v.toNat / _)]
    omega
  refine BitVec.eq_of_toNat_eq ?_
  rw [toNat_lane, BitVec.toNat_sub, BitVec.toNat_sub, toNat_lane, toNat_lane, hsplit, Nat.mod_mul_right_div_self,
    Nat.mod_mul_right_mod, hquot]
  omega

theorem lane_not (hk : k < n / 8) (v : BitVec n) : lane (~~~v) k = ~~~lane v k := by
  refine BitVec.eq_of_getLsbD_eq fun i hi => ?_
  have hin : 8 * k + i < n := by omega
  rw [getLsbD_lane, BitVec.getLsbD_not, BitVec.getLsbD_not, getLsbD_lane, decide_eq_true hi, decide_eq_true hin]
  rfl

theorem lane_everyByte (hk : k < n / 8) (byte : BitVec 8) : lane (everyByte n byte) k = byte := by
  refine BitVec.eq_of_getLsbD_eq fun i hi => ?_
  have hin : 8 * k + i < n := by omega
  have hbit : (8 * k + i) % 8 = i := by omega
  rw [getLsbD_lane, everyByte, getLsbD_bitsOf, decide_eq_true hi, decide_eq_true hin, hbit]
  rfl

/-! ### The borrow trick (R52) -/

/-- On one byte the trick leaves bit 7 set exactly when the byte is 0. -/
theorem borrowTrick_byte : ∀ x : BitVec 8, (x - 0x01) &&& ~~~x &&& 0x80 = if x = 0 then 0x80 else 0 := by
  decide

/-- Up to and including the lowest zero lane nothing is borrowed, and the trick is that of one byte. -/
theorem lane_borrowTrick (hk : k < n / 8) {v : BitVec n} (hbelow : ∀ j < k, lane v j ≠ 0) :
    lane ((v - everyByte n 0x01) &&& ~~~v &&& everyByte n 0x80) k = if lane v k = 0 then 0x80 else 0 := by
  have hborrow : (everyByte n 0x01).toNat % 2 ^ (8 * k) ≤ v.toNat % 2 ^ (8 * k) := by
    refine toNat_mod_le_of_lane_le fun j hj => ?_
    rw [lane_everyByte (by omega)]
    exact BitVec.toNat_pos_of_ne_zero (hbelow j hj)
  rw [lane_and, lane_and, lane_not hk, lane_sub_of_mod_le hk hborrow, lane_everyByte hk, lane_everyByte hk,
    borrowTrick_byte]

/-- With no zero lane every lane of the trick is 0; with one, the lowest such lane is not. -/
theorem portableHaszb_iff (hn : n % 8 = 0) (v : BitVec n) : portableHaszb v = true ↔ ∃ k < n / 8, lane v k = 0 := by
  rw [portableHaszb, bne_iff_ne]
  constructor
  · contrapose!
    intro hnone
    refine eq_of_lane_eq hn fun k hk => ?_
    rw [lane_borrowTrick hk fun j hj => hnone j (hj.trans hk), if_neg (hnone k hk)]
    exact BitVec.extractLsb'_zero.symm
  · intro hzero hall
    obtain ⟨hk, hlane⟩ := Nat.find_spec hzero
    have hbelow (j : Nat) (hj : j < Nat.find hzero) : lane v j ≠ 0 := fun h0 =>
      Nat.find_min hzero hj ⟨hj.trans hk, h0⟩
    have htop := lane_borrowTrick hk hbelow
    rw [hall, if_pos hlane, show lane (0 : BitVec n) (Nat.find hzero) = 0 from BitVec.extractLsb'_zero] at htop
    exact absurd htop (by decide)

theorem isPowerOfTwo_iff (v : BitVec n) : isPowerOfTwo v = true ↔ v = 0 ∨ ∃ k, v.toNat = 2 ^ k := by
  rw [isPowerOfTwo, beq_iff_eq, clearLsb_eq_zero_iff]

/-! ### Rounding to a power of two (R54, R55) -/

/-- Bit `j` of the mask is set exactly when `v` is at least `2 ^ j`, so the mask is as long as `v` is in binary. -/
theorem toNat_expandMsb (v : BitVec n) : (expandMsb v).toNat = ones (Nat.size v.toNat) := by
  refine Nat.eq_of_testBit_eq fun j => Bool.eq_iff_iff.2 ?_
  rw [BitVec.testBit_toNat, getLsbD_expandMsb, ones, Nat.testBit_two_pow_sub_one, decide_eq_true_iff, Nat.lt_size]
  constructor
  · rintro ⟨i, hi, hv⟩
    exact (Nat.pow_le_pow_right (by decide) hi).trans (Nat.ge_two_pow_of_testBit hv)
  · exact Nat.exists_ge_and_testBit_of_ge_two_pow

theorem toNat_sub_one_add_one {v : BitVec n} (hv : v ≠ 0) : (v - 1).toNat + 1 = v.toNat := by
  have hcancel : v - 1 + 1 = v := BitVec.sub_add_cancel v 1
  rcases add_one_cases (v - 1) with ⟨hwrap, -⟩ | ⟨-, hadd⟩
  · exact absurd (hcancel.symm.trans hwrap) hv
  · rw [← hadd, hcancel]

/-- Inside the contract of CLP2 nothing wraps: the mask below `v` and 1 more is a power of two (R55). -/
theorem toNat_expandMsb_sub_one_add_one {v : BitVec n} (hv : v ≠ 0) (hle : v.toNat ≤ 2 ^ (n - 1)) :
    (expandMsb (v - 1) + 1).toNat = 2 ^ Nat.size (v.toNat - 1) := by
  have hsub : (v - 1).toNat = v.toNat - 1 := Nat.eq_sub_of_add_eq (toNat_sub_one_add_one hv)
  have hmask : (expandMsb (v - 1)).toNat + 1 = 2 ^ Nat.size (v.toNat - 1) := by
    rw [← eq_ones_iff, toNat_expandMsb, hsub]
  rcases add_one_cases (expandMsb (v - 1)) with ⟨-, hwrap⟩ | ⟨-, hadd⟩
  · have hfull : Nat.size (v.toNat - 1) = n := Nat.pow_right_injective (le_refl 2) (hmask.symm.trans hwrap)
    have hsize : Nat.size (v.toNat - 1) ≤ n - 1 :=
      Nat.size_le.2 (Nat.sub_one_lt_of_le (BitVec.toNat_pos_of_ne_zero hv) hle)
    have hpos := hiIdx_lt hv
    omega
  · rw [hadd, hmask]

/-! ### What each operation answers on an operand within the width -/

theorem haszbResult_zext (hn : n ≤ 64) (v : BitVec n) : haszbResult n (zext v) = .ok (boolWord (hasZeroByte v)) :=
  withOperand_zext hn v

theorem ispow2Result_zext (hn : n ≤ 64) (v : BitVec n) : ispow2Result n (zext v) = .ok (boolWord (isPowerOfTwo v)) :=
  withOperand_zext hn v

theorem flp2Result_of_ne_zero (hn : n ≤ 64) {v : BitVec n} (hv : v ≠ 0) :
    flp2Result n (zext v) = .ok (zext (isolateMsb v)) := by
  rw [flp2Result, withOperand_zext hn, if_neg hv]

theorem flp2Result_of_not_ne_zero (hn : n ≤ 64) {v : BitVec n} (hv : ¬ v ≠ 0) :
    flp2Result n (zext v) = .error .zeroInput := by
  rw [flp2Result, withOperand_zext hn, if_pos (not_not.1 hv)]

theorem clp2Result_of_in_range (hn : n ≤ 64) {v : BitVec n} (hv : v ≠ 0) (hle : v.toNat ≤ 2 ^ (n - 1)) :
    clp2Result n (zext v) = .ok (zext (expandMsb (v - 1) + 1)) := by
  rw [clp2Result, withOperand_zext hn, if_neg hv, if_neg (Nat.not_lt.2 hle)]

theorem clp2Result_of_not_in_range (hn : n ≤ 64) {v : BitVec n} (hv : ¬ (v ≠ 0 ∧ v.toNat ≤ 2 ^ (n - 1))) :
    ∃ reason, clp2Result n (zext v) = .error reason := by
  rw [clp2Result, withOperand_zext hn]
  by_cases h0 : v = 0
  · exact ⟨_, if_pos h0⟩
  · exact ⟨_, (if_neg h0).trans (if_pos (Nat.lt_of_not_le fun hle => hv ⟨h0, hle⟩))⟩

end

/-! ### The contracts, for an operation of either width -/

section
variable {i : Instr} {n : Nat} (hi : i.wf = true)
include hi

/-- An operation that answers a Boolean keeps its contract when the Boolean decides the property the rule names. -/
theorem answersAll_of_boolWord {p : BitVec n → Bool} {holds fails : BitVec n → Prop}
    (hop : ∀ draw v b c, operate i draw (zext v) b c = .ok (boolWord (p v)))
    (hp : ∀ v, p v = true ↔ holds v) (hfails : ∀ v, ¬ holds v → fails v) :
    AnswersAll i n fun v r => (r = 1 ∧ holds v) ∨ (r = 0 ∧ fails v) := by
  refine answersAll_of_operate hi fun draw v b c => ⟨boolWord (p v), ?_, hop draw v b c⟩
  cases h : p v
  · exact .inr ⟨rfl, hfails v fun hv => Bool.false_ne_true (h.symm.trans ((hp v).2 hv))⟩
  · exact .inl ⟨rfl, (hp v).1 h⟩

variable (hn : n ≤ 64)
include hn

theorem answersAll_haszb (hop : ∀ draw a b c, operate i draw a b c = haszbResult n a) :
    AnswersAll i n fun v r => (r = 1 ∧ ∃ k < n / 8, lane v k = 0) ∨ (r = 0 ∧ ∀ k < n / 8, lane v k ≠ 0) :=
  answersAll_of_boolWord hi (fun _ v _ _ => (hop ..).trans (haszbResult_zext hn v)) hasZeroByte_iff
    fun _ hnone k hk h0 => hnone ⟨k, hk, h0⟩

theorem answersAll_ispow2 (hop : ∀ draw a b c, operate i draw a b c = ispow2Result n a) :
    AnswersAll i n fun v r =>
      (r = 1 ∧ (v = 0 ∨ ∃ k, v.toNat = 2 ^ k)) ∨ (r = 0 ∧ v ≠ 0 ∧ ∀ k, v.toNat ≠ 2 ^ k) :=
  answersAll_of_boolWord hi (fun _ v _ _ => (hop ..).trans (ispow2Result_zext hn v)) isPowerOfTwo_iff
    fun _ hnone => ⟨fun h0 => hnone (.inl h0), fun k hk => hnone (.inr ⟨k, hk⟩)⟩

theorem answersOn_flp2 (hop : ∀ draw a b c, operate i draw a b c = flp2Result n a) :
    AnswersOn i n (fun v => v ≠ 0) fun v r =>
      (∃ k, r.toNat = 2 ^ k) ∧ r.toNat ≤ v.toNat ∧ ∀ k, 2 ^ k ≤ v.toNat → 2 ^ k ≤ r.toNat := by
  refine answersOn_of_operate hi fun _ v _ _ hv => ⟨_, ?_, (hop ..).trans (flp2Result_of_ne_zero hn hv)⟩
  have hv0 : v.toNat ≠ 0 := (BitVec.toNat_pos_of_ne_zero hv).ne'
  rw [toNat_zext hn, toNat_isolateMsb hv]
  exact ⟨⟨_, rfl⟩, (hiIdx_spec hv0).1, fun k hk =>
    Nat.pow_le_pow_right (by decide) ((Nat.le_log2 hv0).2 hk)⟩

theorem undefOutside_flp2 (hop : ∀ draw a b c, operate i draw a b c = flp2Result n a) :
    UndefOutside i n fun v => v ≠ 0 :=
  undefOutside_of_operate hi fun _ _ _ _ hv => ⟨_, (hop ..).trans (flp2Result_of_not_ne_zero hn hv)⟩

theorem answersOn_clp2 (hop : ∀ draw a b c, operate i draw a b c = clp2Result n a) :
    AnswersOn i n (fun v => v ≠ 0 ∧ v.toNat ≤ 2 ^ (n - 1)) fun v r =>
      (∃ k, r.toNat = 2 ^ k) ∧ v.toNat ≤ r.toNat ∧ ∀ k, v.toNat ≤ 2 ^ k → r.toNat ≤ 2 ^ k := by
  refine answersOn_of_operate hi fun _ v _ _ ⟨hne, hle⟩ =>
    ⟨_, ?_, (hop ..).trans (clp2Result_of_in_range hn hne hle)⟩
  rw [toNat_zext hn, toNat_expandMsb_sub_one_add_one hne hle]
  refine ⟨⟨_, rfl⟩, Nat.le_of_pred_lt (Nat.lt_size_self _), fun k hk => ?_⟩
  have hlt : v.toNat - 1 < 2 ^ k := by have := Nat.two_pow_pos k; omega
  exact Nat.pow_le_pow_right (by decide) (Nat.size_le.2 hlt)

theorem undefOutside_clp2 (hop : ∀ draw a b c, operate i draw a b c = clp2Result n a) :
    UndefOutside i n fun v => v ≠ 0 ∧ v.toNat ≤ 2 ^ (n - 1) := by
  refine undefOutside_of_operate hi fun _ v _ _ hv => ?_
  rw [hop]
  exact clp2Result_of_not_in_range hn hv

end

/-- Settles O39: the Boolean of the lanes and that of the borrow trick decide the same property. -/
theorem haszbFindsAZeroLane : Obligations.HaszbFindsAZeroLane :=
  ⟨answersAll_haszb rfl (by decide) fun _ _ _ _ => rfl, answersAll_haszb rfl (by decide) fun _ _ _ _ => rfl,
    widthChecked_of_operandWidths rfl rfl, portableHaszb_iff rfl, portableHaszb_iff rfl⟩

/-- Settles O40: clearing the lowest set bit leaves nothing exactly when at most one bit is set. -/
theorem ispow2IsTrueAtZeroAndPowersOfTwo : Obligations.Ispow2IsTrueAtZeroAndPowersOfTwo :=
  ⟨answersAll_ispow2 rfl (by decide) fun _ _ _ _ => rfl, answersAll_ispow2 rfl (by decide) fun _ _ _ _ => rfl,
    widthChecked_of_operandWidths rfl rfl⟩

/-- Settles O41: the answer is `2 ^ hiIdx v`, and `hiIdx v` is the greatest exponent at or below `v`. -/
theorem flp2RoundsDownToAPowerOfTwo : Obligations.Flp2RoundsDownToAPowerOfTwo :=
  ⟨answersOn_flp2 rfl (by decide) fun _ _ _ _ => rfl, answersOn_flp2 rfl (by decide) fun _ _ _ _ => rfl,
    widthChecked_of_operandWidths rfl rfl,
    undefOutside_flp2 rfl (by decide) fun _ _ _ _ => rfl, undefOutside_flp2 rfl (by decide) fun _ _ _ _ => rfl⟩

/-- Settles O42: the answer is 2 to the length of `v - 1` in binary, the least exponent at or above `v`. -/
theorem clp2RoundsUpToAPowerOfTwo : Obligations.Clp2RoundsUpToAPowerOfTwo :=
  ⟨answersOn_clp2 (n := 32) rfl (by decide) fun _ _ _ _ => rfl,
    undefOutside_clp2 (n := 32) rfl (by decide) fun _ _ _ _ => rfl,
    answersOn_clp2 (n := 64) rfl (by decide) fun _ _ _ _ => rfl,
    undefOutside_clp2 (n := 64) rfl (by decide) fun _ _ _ _ => rfl,
    widthChecked_of_operandWidths rfl rfl⟩

end Sys2Proof.Machine
end

/-! ## Float fields: O43, O44 -/
section

namespace Sys2Proof.Machine

section
variable {e m b s x y : Nat}

/-! ### The fields of a pattern as slices of the number (R56) -/

theorem signField_eq (e m b : Nat) : signField e m b = b / 2 ^ (e + m) % 2 := by
  rw [signField, Nat.and_one_is_mod, Nat.shiftRight_eq_div_pow]

theorem expField_eq (e m b : Nat) : expField e m b = b / 2 ^ m % 2 ^ e := by
  rw [expField, ones, Nat.and_two_pow_sub_one_eq_mod, Nat.shiftRight_eq_div_pow]

theorem mantField_eq (m b : Nat) : mantField m b = b % 2 ^ m := by
  rw [mantField, ones, Nat.and_two_pow_sub_one_eq_mod]

/-- In a pattern within its width nothing stands above the sign bit. -/
theorem signField_of_lt (hb : b < 2 ^ (1 + e + m)) : signField e m b = b / 2 ^ (e + m) := by
  rw [signField_eq, Nat.mod_eq_of_lt]
  rw [Nat.add_assoc, Nat.pow_add, Nat.mul_comm] at hb
  exact Nat.div_lt_of_lt_mul hb

/-! ### A pattern from its fields (R56) -/

/-- An exponent and a mantissa that fit their fields stay below the sign bit. -/
theorem exponent_mantissa_lt (hx : x < 2 ^ e) (hy : y < 2 ^ m) : x * 2 ^ m + y < 2 ^ (e + m) := by
  calc x * 2 ^ m + y < (x + 1) * 2 ^ m := by rw [Nat.succ_mul]; exact Nat.add_lt_add_left hy _
    _ ≤ 2 ^ e * 2 ^ m := Nat.mul_le_mul_right _ hx
    _ = 2 ^ (e + m) := (Nat.pow_add 2 e m).symm

/-- Fields in range do not overlap, so the pattern is their sum. -/
theorem fieldsPattern_eq (hx : x < 2 ^ e) (hy : y < 2 ^ m) :
    fieldsPattern e m s x y = s * 2 ^ (e + m) + (x * 2 ^ m + y) := by
  have hlow : x <<< m ||| y = x * 2 ^ m + y := by rw [← Nat.shiftLeft_add_eq_or_of_lt hy, Nat.shiftLeft_eq]
  rw [fieldsPattern, Nat.or_assoc, hlow, ← Nat.shiftLeft_add_eq_or_of_lt (exponent_mantissa_lt hx hy),
    Nat.shiftLeft_eq]

theorem fieldsPattern_lt (hs : s < 2) (hx : x < 2 ^ e) (hy : y < 2 ^ m) :
    fieldsPattern e m s x y < 2 ^ (1 + e + m) := by
  rw [fieldsPattern_eq hx hy, Nat.add_assoc 1]
  exact exponent_mantissa_lt (e := 1) hs (exponent_mantissa_lt hx hy)

/-- Exponent and mantissa are the pattern below the sign bit, and the sign bit is the quotient there. -/
theorem fieldsPattern_of_fields (hb : b < 2 ^ (1 + e + m)) :
    fieldsPattern e m (signField e m b) (expField e m b) (mantField m b) = b := by
  have hlow : b / 2 ^ m % 2 ^ e * 2 ^ m + b % 2 ^ m = b % 2 ^ (e + m) := by
    rw [Nat.add_comm e m, Nat.pow_add, Nat.mod_mul, Nat.add_comm, Nat.mul_comm]
  rw [signField_of_lt hb, expField_eq, mantField_eq,
    fieldsPattern_eq (Nat.mod_lt _ (Nat.two_pow_pos e)) (Nat.mod_lt _ (Nat.two_pow_pos m)), hlow, Nat.div_add_mod']

theorem signField_fieldsPattern (hs : s < 2) (hx : x < 2 ^ e) (hy : y < 2 ^ m) :
    signField e m (fieldsPattern e m s x y) = s := by
  rw [signField_of_lt (fieldsPattern_lt hs hx hy), fieldsPattern_eq hx hy, Nat.mul_comm s,
    Nat.mul_add_div (Nat.two_pow_pos _), Nat.div_eq_of_lt (exponent_mantissa_lt hx hy), Nat.add_zero]

/-- Above the mantissa stand the exponent and, above it, the sign. -/
theorem fieldsPattern_eq_mul_add (hx : x < 2 ^ e) (hy : y < 2 ^ m) :
    fieldsPattern e m s x y = 2 ^ m * (2 ^ e * s + x) + y := by
  rw [fieldsPattern_eq hx hy, Nat.pow_add]
  ring

theorem expField_fieldsPattern (hx : x < 2 ^ e) (hy : y < 2 ^ m) :
    expField e m (fieldsPattern e m s x y) = x := by
  rw [expField_eq, fieldsPattern_eq_mul_add hx hy, Nat.mul_add_div (Nat.two_pow_pos m), Nat.div_eq_of_lt hy,
    Nat.add_zero, Nat.mul_add_mod, Nat.mod_eq_of_lt hx]

theorem mantField_fieldsPattern (hx : x < 2 ^ e) (hy : y < 2 ^ m) :
    mantField m (fieldsPattern e m s x y) = y := by
  rw [mantField_eq, fieldsPattern_eq_mul_add hx hy, Nat.mul_add_mod, Nat.mod_eq_of_lt hy]

end

/-! ### What each operation answers on operands within the width -/

section
variable {f : FloatFormat} (hf : f.width ≤ 64)
include hf

theorem fsignResult_zext (hs : f.s = 1) (v : BitVec f.width) :
    fsignResult f (zext v) = .ok (word (v.toNat / 2 ^ (f.e + f.m))) := by
  have hv : v.toNat < 2 ^ (1 + f.e + f.m) := hs ▸ v.isLt
  rw [fsignResult, withOperand_zext hf, signField_of_lt hv]

theorem fexpResult_zext (v : BitVec f.width) :
    fexpResult f (zext v) = .ok (word (v.toNat / 2 ^ f.m % 2 ^ f.e)) := by
  rw [fexpResult, withOperand_zext hf, expField_eq]

theorem fmantResult_zext (v : BitVec f.width) : fmantResult f (zext v) = .ok (word (v.toNat % 2 ^ f.m)) := by
  rw [fmantResult, withOperand_zext hf, mantField_eq]

theorem fmakeResult_zext (hs : f.s = 1) (x : BitVec 1) (y : BitVec f.e) (z : BitVec f.m) :
    fmakeResult f (zext x) (zext y) (zext z)
      = .ok (word (fieldsPattern f.e f.m x.toNat y.toNat z.toNat)) := by
  have hwidth : f.s + f.e + f.m ≤ 64 := hf
  rw [fmakeResult, withOperand_zext (by decide), withOperand_zext (by omega), withOperand_zext (by omega)]

end

/-! ### The contracts, for an operation of any format -/

section
variable {i : Instr} {f : FloatFormat} (hi : i.wf = true) (hf : f.width ≤ 64)
include hi hf

/-- An operation that answers a number no greater than its operand keeps its contract: the number fits port `R`. -/
theorem answersAll_of_number_le {number : BitVec f.width → Nat} (hle : ∀ v, number v ≤ v.toNat)
    (hop : ∀ draw v b c, operate i draw (zext v) b c = .ok (word (number v))) :
    AnswersAll i f.width fun v r => r.toNat = number v := by
  refine answersAll_of_operate hi fun draw v b c => ⟨word (number v), toNat_word ?_, hop draw v b c⟩
  exact ((hle v).trans_lt v.isLt).trans_le (Nat.pow_le_pow_right (by decide) hf)

theorem answersAll_fsign (hs : f.s = 1) (hop : ∀ draw a b c, operate i draw a b c = fsignResult f a) :
    AnswersAll i f.width fun v r => r.toNat = v.toNat / 2 ^ (f.e + f.m) :=
  answersAll_of_number_le hi hf (fun _ => Nat.div_le_self _ _) fun _ v _ _ => (hop ..).trans (fsignResult_zext hf hs v)

theorem answersAll_fexp (hop : ∀ draw a b c, operate i draw a b c = fexpResult f a) :
    AnswersAll i f.width fun v r => r.toNat = v.toNat / 2 ^ f.m % 2 ^ f.e :=
  answersAll_of_number_le hi hf (fun _ => (Nat.mod_le _ _).trans (Nat.div_le_self _ _))
    fun _ v _ _ => (hop ..).trans (fexpResult_zext hf v)

theorem answersAll_fmant (hop : ∀ draw a b c, operate i draw a b c = fmantResult f a) :
    AnswersAll i f.width fun v r => r.toNat = v.toNat % 2 ^ f.m :=
  answersAll_of_number_le hi hf (fun _ => Nat.mod_le _ _) fun _ v _ _ => (hop ..).trans (fmantResult_zext hf v)

theorem exec_fmake (hs : f.s = 1) (hop : ∀ draw a b c, operate i draw a b c = fmakeResult f a b c)
    (s : State) (x : BitVec 1) (y : BitVec f.e) (z : BitVec f.m)
    (ha : s.a = zext x) (hb : s.b = zext y) (hc : s.c = zext z) :
    ∃ r, r.toNat = x.toNat * 2 ^ (f.e + f.m) + y.toNat * 2 ^ f.m + z.toNat ∧ exec i s = .next (s.answerOk r) := by
  refine ⟨word (fieldsPattern f.e f.m x.toNat y.toNat z.toNat), ?_, exec_of_operate_ok hi ?_⟩
  · have hlt : fieldsPattern f.e f.m x.toNat y.toNat z.toNat < 2 ^ f.width := by
      rw [FloatFormat.width, hs]
      exact fieldsPattern_lt x.isLt y.isLt z.isLt
    rw [toNat_word (hlt.trans_le (Nat.pow_le_pow_right (by decide) hf)), fieldsPattern_eq y.isLt z.isLt, Nat.add_assoc]
  · rw [hop, ha, hb, hc, fmakeResult_zext hf hs]

end

/-- Settles O43: shifting is dividing and masking is taking the remainder, and no field is longer than its pattern. -/
theorem floatFieldsAreSlicesOfThePattern : Obligations.FloatFieldsAreSlicesOfThePattern :=
  ⟨answersAll_fsign (f := halfFormat) rfl (by decide) rfl fun _ _ _ _ => rfl,
    answersAll_fexp (f := halfFormat) rfl (by decide) fun _ _ _ _ => rfl,
    answersAll_fmant (f := halfFormat) rfl (by decide) fun _ _ _ _ => rfl,
    widthChecked_of_operandWidths rfl rfl, widthChecked_of_operandWidths rfl rfl, widthChecked_of_operandWidths rfl rfl,
    answersAll_fsign (f := floatFormat) rfl (by decide) rfl fun _ _ _ _ => rfl,
    answersAll_fexp (f := floatFormat) rfl (by decide) fun _ _ _ _ => rfl,
    answersAll_fmant (f := floatFormat) rfl (by decide) fun _ _ _ _ => rfl,
    widthChecked_of_operandWidths rfl rfl, widthChecked_of_operandWidths rfl rfl, widthChecked_of_operandWidths rfl rfl,
    answersAll_fsign (f := doubleFormat) rfl (by decide) rfl fun _ _ _ _ => rfl,
    answersAll_fexp (f := doubleFormat) rfl (by decide) fun _ _ _ _ => rfl,
    answersAll_fmant (f := doubleFormat) rfl (by decide) fun _ _ _ _ => rfl⟩

/-- Settles O44: fields in range do not overlap, so building a pattern adds them, and reading one divides them apart. -/
theorem fmakeBuildsThePatternOfATriple : Obligations.FmakeBuildsThePatternOfATriple :=
  ⟨exec_fmake (f := halfFormat) rfl (by decide) rfl fun _ _ _ _ => rfl,
    fun _ h => exec_of_operandTooWide rfl ((operandTooWide_three rfl).2 h),
    exec_fmake (f := floatFormat) rfl (by decide) rfl fun _ _ _ _ => rfl,
    fun _ h => exec_of_operandTooWide rfl ((operandTooWide_three rfl).2 h),
    exec_fmake (f := doubleFormat) rfl (by decide) rfl fun _ _ _ _ => rfl,
    fun _ h => exec_of_operandTooWide rfl ((operandTooWide_three rfl).2 h),
    fun _ _ _ => fieldsPattern_of_fields,
    fun _ _ _ _ _ hs hx hy =>
      ⟨signField_fieldsPattern hs hx hy, expField_fieldsPattern hx hy, mantField_fieldsPattern hx hy⟩⟩

end Sys2Proof.Machine
end

/-! ## Float conversions: O45 to O55 -/
section

namespace Sys2Proof.Machine

/-! ### Rounding on rationals and on integers (R64) -/

/-- The floor of a fraction over a power of two is the integer quotient. -/
theorem floor_div_two_pow (x t : Nat) : ((x : Rat) / 2 ^ t).floor = (x / 2 ^ t : Nat) := by
  have h : ⌊(x : Rat) / (2 ^ t : Nat)⌋ = (x : Int) / (2 ^ t : Nat) := Rat.floor_natCast_div_natCast x (2 ^ t)
  rw [Nat.cast_pow, Nat.cast_ofNat] at h
  exact h.trans (by norm_cast)

/-- Half a unit is added as half of the divisor. -/
theorem floor_div_two_pow_add_half (x t : Nat) :
    ((x : Rat) / 2 ^ t + 1 / 2).floor = ((2 * x + 2 ^ t) / 2 ^ (t + 1) : Nat) := by
  have hsum : (x : Rat) / 2 ^ t + 1 / 2 = (2 * x + 2 ^ t : Nat) / 2 ^ (t + 1) := by
    push_cast
    field_simp
    ring
  rw [hsum, floor_div_two_pow]

/-- Adding half of the divisor carries into the quotient when the remainder is at least half of it. -/
theorem add_half_div_two_pow (x t : Nat) :
    (2 * x + 2 ^ t) / 2 ^ (t + 1) = if 2 * (x % 2 ^ t) < 2 ^ t then x / 2 ^ t else x / 2 ^ t + 1 := by
  have hpos := Nat.two_pow_pos t
  have hrem := Nat.mod_lt x hpos
  have hx : 2 * x + 2 ^ t = 2 ^ (t + 1) * (x / 2 ^ t) + (2 * (x % 2 ^ t) + 2 ^ t) := by
    conv_lhs => rw [← Nat.div_add_mod x (2 ^ t)]
    ring
  rw [hx, Nat.mul_add_div (Nat.two_pow_pos _)]
  split
  · have hdown : (2 * (x % 2 ^ t) + 2 ^ t) / 2 ^ (t + 1) = 0 := Nat.div_eq_of_lt (by rw [Nat.pow_succ]; omega)
    rw [hdown, Nat.add_zero]
  · have hup : (2 * (x % 2 ^ t) + 2 ^ t) / 2 ^ (t + 1) = 1 :=
      Nat.div_eq_of_lt_le (by rw [Nat.pow_succ]; omega) (by rw [Nat.pow_succ]; omega)
    rw [hup]

/-- A fraction is halfway between two integers when twice the remainder is the divisor. -/
theorem div_sub_quotient_eq_half_iff (x t : Nat) :
    (x : Rat) / 2 ^ t - (x / 2 ^ t : Nat) = 1 / 2 ↔ 2 * (x % 2 ^ t) = 2 ^ t := by
  have hx : (x : Rat) = 2 ^ t * (x / 2 ^ t : Nat) + (x % 2 ^ t : Nat) := by
    exact_mod_cast (Nat.div_add_mod x (2 ^ t)).symm
  have hfrac : (x : Rat) / 2 ^ t - (x / 2 ^ t : Nat) = (x % 2 ^ t : Nat) / 2 ^ t := by
    rw [eq_div_iff (by positivity), sub_mul, div_mul_cancel₀ _ (by positivity)]
    linarith
  rw [hfrac, div_eq_div_iff (by positivity) (by positivity), one_mul, mul_comm]
  exact_mod_cast Iff.rfl

/-- Rounding `x / 2^t` as an exact rational and rounding it by shifts agree. -/
theorem roundRat_div_two_pow (tie : PackTie) (x t : Nat) : roundRat tie ((x : Rat) / 2 ^ t) = roundShift tie x t := by
  cases tie with
  | away => rw [roundRat, floor_div_two_pow_add_half, roundShift, Nat.shiftRight_eq_div_pow]
  | even =>
    simp only [roundRat, roundShift, floor_div_two_pow, Int.cast_natCast, div_sub_quotient_eq_half_iff,
      floor_div_two_pow_add_half, add_half_div_two_pow, Nat.shiftRight_eq_div_pow]
    rcases Nat.lt_trichotomy (2 * (x % 2 ^ t)) (2 ^ t) with hlt | heq | hgt
    · rw [if_neg hlt.ne, if_pos hlt, if_pos hlt]
    · rw [if_pos heq, if_neg heq.not_lt, if_neg heq.not_gt]
      rfl
    · rw [if_neg hgt.ne', if_neg hgt.not_gt, if_neg hgt.not_gt, if_pos hgt]

/-- A multiple of the divisor is rounded to the exact quotient under either tie rule. -/
theorem roundShift_mul_two_pow (tie : PackTie) (x t : Nat) : roundShift tie (x * 2 ^ t) t = x := by
  have hpos := Nat.two_pow_pos t
  cases tie with
  | away =>
    rw [roundShift, Nat.shiftRight_eq_div_pow, add_half_div_two_pow, Nat.mul_mod_left, if_pos hpos,
      Nat.mul_div_cancel _ hpos]
  | even => simp [roundShift, Nat.shiftRight_eq_div_pow, hpos]

section
variable {x e m : Nat}

/-- The floor of the binary logarithm of `x` units of `2^-149`. -/
theorem log_units (hx : x ≠ 0) : Int.log 2 ((x : Rat) * 2 ^ (-149 : Int)) = hiIdx x - 149 := by
  obtain ⟨hlow, hhigh⟩ := hiIdx_spec hx
  have hpos : (0 : Rat) < x * 2 ^ (-149 : Int) := by positivity
  have hunit : (0 : Rat) < 2 ^ (-149 : Int) := by positivity
  have hlow' : ((2 : Nat) : Rat) ^ ((hiIdx x : Int) - 149) ≤ x * 2 ^ (-149 : Int) := by
    rw [sub_eq_add_neg, zpow_add₀ (by norm_num), zpow_natCast]
    exact mul_le_mul_of_nonneg_right (by exact_mod_cast hlow) hunit.le
  have hhigh' : x * 2 ^ (-149 : Int) < ((2 : Nat) : Rat) ^ ((hiIdx x : Int) - 149 + 1) := by
    rw [sub_add_eq_add_sub, sub_eq_add_neg, zpow_add₀ (by norm_num)]
    exact mul_lt_mul_of_pos_right (by exact_mod_cast hhigh) hunit
  have hle := (Int.zpow_le_iff_le_log (by decide) hpos).1 hlow'
  have hlt := (Int.lt_zpow_iff_log_lt (by decide) hpos).1 hhigh'
  omega

/-- The narrow format's step, in units of `2^-149`, is `2^t`. -/
theorem units_div_step {t : Nat} {step : Int} (x : Nat) (hstep : step = t - 149) :
    (x : Rat) * 2 ^ (-149 : Int) / 2 ^ step = x / 2 ^ t := by
  rw [hstep, sub_eq_add_neg, zpow_add₀ (by norm_num), zpow_natCast, mul_div_mul_right _ _ (by positivity)]

/-- A value of `2^h` steps or more is rounded to `2^h` at least. -/
theorem two_pow_le_roundShift (tie : PackTie) {h t : Nat} (hx : 2 ^ (h + t) ≤ x) : 2 ^ h ≤ roundShift tie x t := by
  have hq : 2 ^ h ≤ x / 2 ^ t := (Nat.le_div_iff_mul_le (Nat.two_pow_pos t)).2 (by rwa [← Nat.pow_add])
  cases tie with
  | away =>
    rw [roundShift, Nat.shiftRight_eq_div_pow, add_half_div_two_pow]
    split <;> omega
  | even =>
    simp only [roundShift, Nat.shiftRight_eq_div_pow]
    split
    · exact hq
    · split <;> omega

theorem bias_le (he : e ≤ 8) : bias e ≤ 127 := by
  have : 2 ^ (e - 1) ≤ 2 ^ 7 := Nat.pow_le_pow_right (by decide) (by omega)
  unfold bias
  omega

/-- `round_to_format` on `x` units of `2^-149` is its integer form (R64). -/
theorem roundToFormatExact_units (tie : PackTie) (he : e ≤ 8) (hm : m ≤ 23) (x : Nat) :
    roundToFormatExact tie (x * 2 ^ (-149 : Int)) e m = roundToFormat tie x e m := by
  unfold roundToFormatExact roundToFormat
  by_cases hx : x = 0
  · simp [hx]
  have hbias := bias_le he
  have hne : (x : Rat) * 2 ^ (-149 : Int) ≠ 0 := by positivity
  have hround : roundRat tie ((x : Rat) * 2 ^ (-149 : Int) / 2 ^ (max ((hiIdx x : Int) - 149) (1 - bias e) - m))
      = roundShift tie x (max (hiIdx x) (150 - bias e) - m) := by
    rw [units_div_step (t := max (hiIdx x) (150 - bias e) - m) x (by omega), roundRat_div_two_pow]
  simp only [if_neg hx, if_neg hne, log_units hx, hround]
  simp only [Nat.shiftLeft_eq]
  rw [Nat.cast_min]
  congr 1
  by_cases hden : hiIdx x < 150 - bias e
  · rw [if_pos hden, if_pos (by omega)]
  · have hk : 2 ^ m ≤ roundShift tie x (max (hiIdx x) (150 - bias e) - m) := by
      refine two_pow_le_roundShift tie ?_
      rw [show m + (max (hiIdx x) (150 - bias e) - m) = hiIdx x by omega]
      exact (hiIdx_spec hx).1
    rw [if_neg hden, if_neg (by omega)]
    push_cast [Nat.cast_sub hk, Nat.cast_sub (show 149 ≤ hiIdx x + bias e by omega)]
    ring

end
/-! ### Magnitudes in units of `2^-149` -/

section
variable {e m x y : Nat}

/-- The magnitude of a finite triple of a format, in units of `2^-149`: what `floatUnits` is for a Float (R58, R64). -/
def fieldsUnits (e m x y : Nat) : Nat :=
  if x = 0 then y * 2 ^ (150 - bias e - m) else (2 ^ m + y) * 2 ^ (x + 149 - bias e - m)

theorem fieldsUnits_zero (e m y : Nat) : fieldsUnits e m 0 y = y * 2 ^ (150 - bias e - m) := if_pos rfl

theorem fieldsUnits_of_ne_zero (hx : x ≠ 0) : fieldsUnits e m x y = (2 ^ m + y) * 2 ^ (x + 149 - bias e - m) :=
  if_neg hx

theorem floatUnits_eq (x y : Nat) : floatUnits x y = fieldsUnits 8 23 x y := by
  unfold floatUnits
  by_cases hx : x = 0
  · rw [if_pos hx, hx, fieldsUnits_zero]
    exact (Nat.mul_one y).symm
  · rw [if_neg hx, fieldsUnits_of_ne_zero hx, Nat.shiftLeft_eq, show x - 1 = x + 149 - bias 8 - 23 by rw [bias]; omega]

/-- Every finite value of a legal format is a whole number of units. -/
theorem magnitude_eq (he : e ≤ 8) (hm : m ≤ 23) (x y : Nat) :
    magnitude e m x y = fieldsUnits e m x y * 2 ^ (-149 : Int) := by
  have hbias := bias_le he
  have step (k : Nat) (p : Int) (hp : p = k - 149) : (2 : Rat) ^ p = 2 ^ k * 2 ^ (-149 : Int) := by
    rw [hp, sub_eq_add_neg, zpow_add₀ (by norm_num), zpow_natCast]
  unfold magnitude
  by_cases hx : x = 0
  · rw [if_pos hx, hx, fieldsUnits_zero, step (150 - bias e - m) _ (by omega)]
    push_cast
    ring
  · rw [if_neg hx, fieldsUnits_of_ne_zero hx, step (x + 149 - bias e - m) _ (by omega)]
    push_cast
    ring

/-- A significand of `m` bits under a leading bit has its highest bit there. -/
theorem hiIdx_significand (hy : y < 2 ^ m) (t : Nat) : hiIdx ((2 ^ m + y) * 2 ^ t) = m + t := by
  have hne : (2 ^ m + y) * 2 ^ t ≠ 0 := by positivity
  rw [hiIdx, Nat.log2_eq_iff hne, Nat.add_right_comm, Nat.pow_add, Nat.pow_add]
  exact ⟨Nat.mul_le_mul_right _ (Nat.le_add_right _ _),
    Nat.mul_lt_mul_of_pos_right (by rw [Nat.pow_succ]; omega) (Nat.two_pow_pos _)⟩

/-- A pattern with an exponent below all ones is below the infinity. -/
theorem pattern_le_infinity (hx : x < ones e) (hy : y < 2 ^ m) : x * 2 ^ m + y ≤ ones e * 2 ^ m := by
  calc x * 2 ^ m + y ≤ (x + 1) * 2 ^ m := by rw [Nat.succ_mul]; omega
    _ ≤ ones e * 2 ^ m := Nat.mul_le_mul_right _ hx

section
variable (tie : PackTie) (he' : e ≤ 8) (hm : m ≤ 23) (hy : y < 2 ^ m)
include he' hm hy

theorem roundToFormat_denormal (he : 0 < ones e) : roundToFormat tie (fieldsUnits e m 0 y) e m = y := by
  have hbias := bias_le he'
  have hinf := pattern_le_infinity he hy
  rw [Nat.zero_mul, Nat.zero_add] at hinf
  rw [fieldsUnits_zero, roundToFormat]
  by_cases hy0 : y = 0
  · simp [hy0]
  have hne : y * 2 ^ (150 - bias e - m) ≠ 0 := by positivity
  have hlt : hiIdx (y * 2 ^ (150 - bias e - m)) < 150 - bias e := by
    have hexp : 150 - bias e = m + (150 - bias e - m) := by omega
    rw [hiIdx, Nat.log2_lt hne]
    conv_rhs => rw [hexp, Nat.pow_add]
    exact Nat.mul_lt_mul_of_pos_right hy (Nat.two_pow_pos _)
  simp only [if_neg hne, if_pos hlt, Nat.max_eq_right hlt.le, roundShift_mul_two_pow, Nat.shiftLeft_eq]
  exact Nat.min_eq_left hinf

theorem roundToFormat_normal (hx0 : x ≠ 0) (hx : x < ones e) :
    roundToFormat tie (fieldsUnits e m x y) e m = x * 2 ^ m + y := by
  have hbias := bias_le he'
  have hne : (2 ^ m + y) * 2 ^ (x + 149 - bias e - m) ≠ 0 := by positivity
  have hh : hiIdx ((2 ^ m + y) * 2 ^ (x + 149 - bias e - m)) = x + 149 - bias e := by
    rw [hiIdx_significand hy, Nat.add_sub_cancel' (by omega)]
  rw [fieldsUnits_of_ne_zero hx0, roundToFormat]
  simp only [if_neg hne, hh, if_neg (show ¬ x + 149 - bias e < 150 - bias e by omega),
    Nat.max_eq_left (show 150 - bias e ≤ x + 149 - bias e by omega), roundShift_mul_two_pow, Nat.shiftLeft_eq,
    Nat.add_sub_cancel_left, show x + 149 - bias e + bias e - 149 = x by omega]
  exact Nat.min_eq_left (pattern_le_infinity hx hy)

/-- Every pattern below the infinity is what rounding its exact value gives, under either tie rule (R64). -/
theorem roundToFormat_fieldsUnits (hx : x < ones e) :
    roundToFormat tie (fieldsUnits e m x y) e m = x * 2 ^ m + y := by
  obtain rfl | hx0 := eq_or_ne x 0
  · rw [roundToFormat_denormal tie he' hm hy hx, Nat.zero_mul, Nat.zero_add]
  · exact roundToFormat_normal tie he' hm hy hx0 hx

end

end

/-- Settles O46: in units of `2^-149` the magnitude is the integer of the integer form, and the step a power of two. -/
theorem roundingIntegerFormMatchesTheExactRationals : Obligations.RoundingIntegerFormMatchesTheExactRationals := by
  intro tie fe fm e32 m32 hlegal _ _
  obtain ⟨-, ⟨-, he⟩, -, hm⟩ := formatLegal_iff.1 hlegal
  rw [magnitude_eq (by decide) (by decide), roundToFormatExact_units tie he hm, floatUnits_eq]

/-! ### Packing -/

section
variable {s e m nan : Nat}

/-- The packed pattern of a Float without its sign, from the Float's exponent and mantissa fields (R65). -/
def packMagnitude (tie : PackTie) (nan e m e32 m32 : Nat) : Nat :=
  if e32 = 255 then if m32 = 0 then ones e <<< m else ones e <<< m ||| nan
  else roundToFormat tie (floatUnits e32 m32) e m

theorem packMagnitude_of_finite (tie : PackTie) {e32 : Nat} (h : e32 ≠ 255) (m32 : Nat) :
    packMagnitude tie nan e m e32 m32 = roundToFormat tie (floatUnits e32 m32) e m := if_neg h

theorem packMagnitude_infinity (tie : PackTie) : packMagnitude tie nan e m 255 0 = ones e * 2 ^ m := by
  rw [packMagnitude, if_pos rfl, if_pos rfl, Nat.shiftLeft_eq]

theorem packMagnitude_nan (tie : PackTie) {m32 : Nat} (h : m32 ≠ 0) (hnan : nan < 2 ^ m) :
    packMagnitude tie nan e m 255 m32 = ones e * 2 ^ m + nan := by
  rw [packMagnitude, if_pos rfl, if_neg h, ← Nat.shiftLeft_add_eq_or_of_lt hnan, Nat.shiftLeft_eq]

theorem packMagnitude_lt (tie : PackTie) (hnan : nan < 2 ^ m) (e32 m32 : Nat) :
    packMagnitude tie nan e m e32 m32 < 2 ^ (e + m) := by
  rw [← le_ones_iff]
  unfold packMagnitude
  split
  · split
    · exact infinity_le
    · exact shiftLeft_or_le le_rfl (le_ones_iff.2 hnan)
  · exact roundToFormat_le tie

/-- The fields of a Float pattern as slices of the number (R56). -/
theorem floatFields_eq (v : BitVec 32) : signField 8 23 v.toNat = v.toNat / 2 ^ 31
    ∧ expField 8 23 v.toNat = v.toNat / 2 ^ 23 % 2 ^ 8 ∧ mantField 23 v.toNat = v.toNat % 2 ^ 23 :=
  ⟨signField_of_lt v.isLt, expField_eq 8 23 _, mantField_eq 23 _⟩

/-- The sign, if the format has one, stands above the packed magnitude and does not overlap it. -/
theorem packPattern_eq (tie : PackTie) (hs : s ≤ 1) (hnan : nan < 2 ^ m) (v : BitVec 32) :
    packPattern tie nan s e m v = s * (v.toNat / 2 ^ 31) * 2 ^ (e + m)
      + packMagnitude tie nan e m (v.toNat / 2 ^ 23 % 2 ^ 8) (v.toNat % 2 ^ 23) := by
  obtain ⟨hsign, hexp, hmant⟩ := floatFields_eq v
  have hparts : packPattern tie nan s e m v = (if s = 1 then signField 8 23 v.toNat <<< (e + m) else 0)
      ||| packMagnitude tie nan e m (expField 8 23 v.toNat) (mantField 23 v.toNat) := rfl
  rw [hparts, hsign, hexp, hmant]
  obtain rfl | rfl : s = 0 ∨ s = 1 := by omega
  · simp
  · rw [if_pos rfl, ← Nat.shiftLeft_add_eq_or_of_lt (packMagnitude_lt tie hnan _ _), Nat.shiftLeft_eq, Nat.one_mul]

end

/-! ### FPACK and F32TOF16: O47, O45, O49 -/

section
variable {s : State} {fs fe fm : Nat}

theorem nanMantissa_pos (draw : Nat) (m32 : BitVec 23) (m : Nat) : nanMantissa draw m32 m ≠ 0 := by
  unfold nanMantissa
  omega

theorem packResult_zext (draw s e m : Nat) (v : BitVec 32) : packResult draw s e m (zext v)
    = .ok (word (packPattern .away (nanMantissa draw (v.setWidth 23) m) s e m v)) := by
  rw [packResult, withOperand_zext (by decide), Config.packTie]

/-- FPACK of a Float pattern puts the sign, if the format has one, above the packed magnitude (R65). -/
theorem exec_fpack (h : formatLegal fs fe fm = true) {v : BitVec 32} (ha : s.a = zext v) :
    exec (.fpack fs fe fm) s = .next (s.answerOk (word
      (packPattern .away (nanMantissa s.draws (v.setWidth 23) fm) fs fe fm v))) :=
  exec_of_operate_ok (i := .fpack fs fe fm) h (ha ▸ packResult_zext s.draws fs fe fm v)

/-- The fields of a pattern built from fields in range, read off by division (R56). -/
theorem fieldsPattern_slices {e m g x y : Nat} (hg : g < 2) (hx : x < 2 ^ e) (hy : y < 2 ^ m) :
    fieldsPattern e m g x y / 2 ^ (e + m) = g ∧ fieldsPattern e m g x y / 2 ^ m % 2 ^ e = x
      ∧ fieldsPattern e m g x y % 2 ^ m = y :=
  ⟨(signField_of_lt (fieldsPattern_lt hg hx hy)).symm.trans (signField_fieldsPattern hg hx hy),
    (expField_eq e m _).symm.trans (expField_fieldsPattern hx hy),
    (mantField_eq m _).symm.trans (mantField_fieldsPattern hx hy)⟩

/-- F32TOF16 is FPACK to the Half format (R67). -/
theorem exec_f32tof16 (s : State) : exec .f32tof16 s = exec (.fpack 1 5 10) s := rfl

theorem step_of_presents_formatRange {q : Request} {rest : List HostInput} (h : s.Presents q rest)
    (hop : opcOf q.cmd = 0x24 ∨ opcOf q.cmd = 0x25)
    (hrange : feOf q.cmd < 2 ∨ 8 < feOf q.cmd ∨ fmOf q.cmd < 1 ∨ 23 < fmOf q.cmd) :
    step s = .next ((s.accept q rest).raise .illegal) :=
  step_of_presents_illegal h (illegalCommand_iff_fields.2 (.inr (.inr (.inr (.inr ⟨hop, hrange⟩)))))

end

/-- Settles O47: the sign does not overlap the packed magnitude, which for a finite Float is the rounding of R64. -/
theorem fpackNarrowsEveryFloat : Obligations.FpackNarrowsEveryFloat := by
  refine ⟨?ok, ?wide, fun s q rest h hop => step_of_presents_formatRange h (.inl hop)⟩
  case ok =>
    intro fs fe fm s v h ha
    obtain ⟨hs, ⟨-, he⟩, hm, hm'⟩ := formatLegal_iff.1 h
    have hnan : nanMantissa s.draws (v.setWidth 23) fm < 2 ^ fm := le_ones_iff.1 (nanMantissa_le _ _ hm)
    have hpos := nanMantissa_pos s.draws (v.setWidth 23) fm
    generalize hn : nanMantissa s.draws (v.setWidth 23) fm = nan at hnan hpos
    refine ⟨packMagnitude .away nan fe fm (v.toNat / 2 ^ 23 % 2 ^ 8) (v.toNat % 2 ^ 23), ?_,
      packMagnitude_lt _ hnan _ _, fun hfin => ?_, fun hspecial hinf => ?_, fun hspecial hne => ?_⟩
    · rw [exec_fpack h ha, hn, packPattern_eq _ hs hnan]
    · rw [packMagnitude_of_finite _ hfin, magnitude_eq (by decide) (by decide), roundToFormatExact_units _ he hm',
        floatUnits_eq]
    · rw [hspecial, hinf, packMagnitude_infinity]
    · rw [hspecial, packMagnitude_nan _ hne hnan, Nat.mul_comm, Nat.mul_add_div (Nat.two_pow_pos _),
        Nat.div_eq_of_lt hnan, Nat.mul_add_mod, Nat.mod_eq_of_lt hnan]
      exact ⟨rfl, hpos⟩
  case wide =>
    exact fun fs fe fm s h ha => widthChecked_of_operandWidths (i := .fpack fs fe fm) h rfl s ha

/-- The fields of a packed NaN (R63). -/
theorem exec_fpack_nan {s : State} {fs fe fm : Nat} (h : formatLegal fs fe fm = true) {v : BitVec 32}
    (ha : s.a = zext v) (hspecial : v.toNat / 2 ^ 23 % 2 ^ 8 = 255) (hne : v.toNat % 2 ^ 23 ≠ 0) :
    ∃ r, exec (.fpack fs fe fm) s = .next (s.answerOk r) ∧ r.toNat / 2 ^ fm % 2 ^ fe = ones fe
      ∧ r.toNat % 2 ^ fm ≠ 0 ∧ r.toNat / 2 ^ (fe + fm) = fs * (v.toNat / 2 ^ 31) := by
  obtain ⟨hs, ⟨-, he⟩, -, hm⟩ := formatLegal_iff.1 h
  obtain ⟨p, hexec, -, -, -, hnan⟩ := fpackNarrowsEveryFloat.1 fs fe fm s v h ha
  obtain ⟨hexp, hmant⟩ := hnan hspecial hne
  have hx : ones fe < 2 ^ fe := le_ones_iff.1 le_rfl
  have hy : p % 2 ^ fm < 2 ^ fm := Nat.mod_lt _ (Nat.two_pow_pos _)
  have hg : fs * (v.toNat / 2 ^ 31) < 2 := by
    have hbit : v.toNat / 2 ^ 31 ≤ 1 := by omega
    exact Nat.lt_succ_of_le (Nat.mul_le_mul hs hbit)
  have hp : fs * (v.toNat / 2 ^ 31) * 2 ^ (fe + fm) + p
      = fieldsPattern fe fm (fs * (v.toNat / 2 ^ 31)) (ones fe) (p % 2 ^ fm) := by
    rw [fieldsPattern_eq hx hy, ← hexp, Nat.div_add_mod']
  have hwidth : 2 ^ (1 + fe + fm) ≤ 2 ^ 64 := Nat.pow_le_pow_right (by decide) (by omega)
  obtain ⟨hsign, hexponent, hmantissa⟩ := fieldsPattern_slices hg hx hy
  refine ⟨_, hexec, ?_⟩
  rw [hp, toNat_word ((fieldsPattern_lt hg hx hy).trans_le hwidth), hexponent, hmantissa]
  exact ⟨rfl, hmant, hsign⟩

/-- Settles O45: of the packed pattern that O47 gives, the fields of a NaN are read off by division. -/
theorem packedNaNHasOnesExponentAndNonzeroMantissa : Obligations.PackedNaNHasOnesExponentAndNonzeroMantissa := by
  refine ⟨fun fs fe fm s v h => exec_fpack_nan h, fun s v ha hspecial hne => ?_⟩
  obtain ⟨r, hexec, hexp, hmant, hsign⟩ := exec_fpack_nan (fs := 1) (fe := 5) (fm := 10) rfl ha hspecial hne
  exact ⟨r, hexec, hexp, hmant, hsign.trans (Nat.one_mul _)⟩

/-- Settles O49: both operations answer with the same function of port `A` and the draw. -/
theorem f32tof16IsFpackToHalf : Obligations.F32tof16IsFpackToHalf := by
  refine ⟨fun s v ha => ?_, widthChecked_of_operandWidths rfl rfl⟩
  have hexec := exec_fpack (fs := 1) (fe := 5) (fm := 10) rfl ha
  have hle := packPattern_le (s := 1) (e := 5) (m := 10) .away le_rfl
    (nanMantissa_le s.draws (v.setWidth 23) (m := 10) (by decide)) v
  exact ⟨_, (toNat_word_le _).trans_lt (le_ones_iff.1 hle), (exec_f32tof16 s).trans hexec, hexec⟩

/-! ### Unpacking -/

section
variable {e m g x y X Y : Nat}

/-- Two fields of a Float pattern without its sign do not overlap. -/
theorem floatMagnitude_or_eq (hY : Y < 2 ^ 23) : Y ||| X <<< 23 = X * 2 ^ 23 + Y := by
  rw [Nat.or_comm, ← Nat.shiftLeft_add_eq_or_of_lt hY, Nat.shiftLeft_eq]

/-- A mantissa of `k` bits under a leading bit, moved to the top of a Float's mantissa field, keeps its value. -/
theorem floatUnits_shiftLeft {k : Nat} (hk : k ≤ 23) (hX : X ≠ 0) (y : Nat) :
    floatUnits X (y <<< (23 - k)) = (2 ^ k + y) * 2 ^ (X + 22 - k) := by
  have hlead : (2 : Nat) ^ 23 = 2 ^ k * 2 ^ (23 - k) := by rw [← Nat.pow_add, Nat.add_sub_cancel' hk]
  have hexp : X + 22 - k = 23 - k + (X - 1) := by omega
  rw [floatUnits, if_neg hX, Nat.shiftLeft_eq, Nat.shiftLeft_eq, hlead, ← Nat.add_mul, Nat.mul_assoc, ← Nat.pow_add,
    hexp]

/-- The largest exponent field is twice the bias and one more. -/
theorem ones_eq_two_mul_bias (he : 1 ≤ e) : ones e = 2 * bias e + 1 := by
  have := bias_add_one he
  unfold ones
  omega

/-- Only the widest exponent has a bias from 64 up. -/
theorem bias_eq_of_le (he : e ≤ 8) (h : 64 ≤ bias e) : bias e = 127 := by
  have h8 : e = 8 := by
    by_contra hne
    have : 2 ^ (e - 1) ≤ 2 ^ 6 := Nat.pow_le_pow_right (by decide) (by omega)
    unfold bias at h
    omega
  rw [h8]
  rfl

/-- A Float's exponent and mantissa fields `X`, `Y` hold what `x`, `y` hold in the format: the same number of units when
that is finite, and else the all-ones exponent over the mantissa shifted up (R66). -/
structure Widens (e m x y X Y : Nat) : Prop where
  exponent_le : X ≤ 255
  mantissa_lt : Y < 2 ^ 23
  finite : x ≠ ones e → X ≠ 255 ∧ floatUnits X Y = fieldsUnits e m x y
  special : x = ones e → X = 255 ∧ Y = y * 2 ^ (23 - m)

theorem widens_of_finite (hX : X < 255) (hY : Y < 2 ^ 23) (hx : x ≠ ones e)
    (hunits : floatUnits X Y = fieldsUnits e m x y) : Widens e m x y X Y :=
  ⟨hX.le, hY, fun _ => ⟨hX.ne, hunits⟩, fun h => absurd h hx⟩

section
variable (he : 2 ≤ e) (he' : e ≤ 8) (hm : m ≤ 23) (hy : y < 2 ^ m)
include he hm hy

theorem unpackMagnitude_special :
    ∃ X Y, Widens e m (ones e) y X Y ∧ unpackMagnitude e m (ones e) y = X * 2 ^ 23 + Y := by
  have hones := ones_eq_two_mul_bias (e := e) (by omega)
  have hlow := shiftLeft_mantissa_lt hy hm
  refine ⟨255, _, ⟨le_rfl, hlow, fun h => absurd rfl h, fun _ => ⟨rfl, Nat.shiftLeft_eq _ _⟩⟩, ?_⟩
  simp only [unpackMagnitude, if_neg (show ones e ≠ 0 by omega), if_true]
  exact floatMagnitude_or_eq hlow

include he'

theorem unpackMagnitude_normal (hx0 : x ≠ 0) (hx : x < ones e) :
    ∃ X Y, Widens e m x y X Y ∧ unpackMagnitude e m x y = X * 2 ^ 23 + Y := by
  have hbias := bias_le he'
  have hones := ones_eq_two_mul_bias (e := e) (by omega)
  have hlow := shiftLeft_mantissa_lt hy hm
  refine ⟨x + 127 - bias e, _, widens_of_finite (by omega) hlow hx.ne ?_, ?_⟩
  · rw [floatUnits_shiftLeft hm (by omega), fieldsUnits_of_ne_zero hx0]
    congr 2
    omega
  · simp only [unpackMagnitude, if_neg hx0, if_neg hx.ne]
    exact floatMagnitude_or_eq hlow

/-- A denormal of the format is a normal Float, but for the smallest ones when the format's exponents are the Float's. -/
theorem unpackMagnitude_denormal (hy0 : y ≠ 0) :
    ∃ X Y, Widens e m 0 y X Y ∧ unpackMagnitude e m 0 y = X * 2 ^ 23 + Y := by
  have hbias := bias_le he'
  have hones := ones_eq_two_mul_bias (e := e) (by omega)
  obtain ⟨hle, hlt⟩ := hiIdx_spec hy0
  have hh : hiIdx y < m := (Nat.log2_lt hy0).2 hy
  rw [Nat.pow_succ] at hlt
  simp only [unpackMagnitude, if_true, if_neg hy0]
  by_cases hnormal : bias e + m < hiIdx y + 128
  · have hY := shiftLeft_mantissa_lt (x := y - 2 ^ hiIdx y) (k := hiIdx y) (by omega) (by omega)
    refine ⟨hiIdx y + 128 - bias e - m, _, widens_of_finite (by omega) hY (by omega) ?_, ?_⟩
    · rw [floatUnits_shiftLeft (by omega) (by omega), Nat.add_sub_cancel' hle, fieldsUnits_zero]
      congr 2
      omega
    · rw [if_pos hnormal, Nat.or_comm, floatMagnitude_or_eq hY]
  · have hwide := bias_eq_of_le he' (by omega)
    refine ⟨0, _, widens_of_finite (by omega) (shiftLeft_mantissa_lt hy hm) (by omega) ?_, ?_⟩
    · rw [floatUnits, if_pos rfl, Nat.shiftLeft_eq, fieldsUnits_zero, hwide]
    · rw [if_neg hnormal, Nat.zero_mul, Nat.zero_add]

/-- The magnitude FUNPACK builds has fields that hold what the triple holds (R66). -/
theorem unpackMagnitude_widens (hx : x < 2 ^ e) :
    ∃ X Y, Widens e m x y X Y ∧ unpackMagnitude e m x y = X * 2 ^ 23 + Y := by
  obtain rfl | hspecial := eq_or_ne x (ones e)
  · exact unpackMagnitude_special he hm hy
  obtain rfl | hx0 := eq_or_ne x 0
  · obtain rfl | hy0 := eq_or_ne y 0
    · exact ⟨0, 0, widens_of_finite (by decide) (by decide) hspecial (by simp [floatUnits, fieldsUnits]), rfl⟩
    · exact unpackMagnitude_denormal he he' hm hy hy0
  · exact unpackMagnitude_normal he he' hm hy hx0 (lt_of_le_of_ne (le_ones_iff.2 hx) hspecial)

end

/-- The Float pattern `v` has the sign `g` and holds what the exponent `x` and the mantissa `y` hold in the format. -/
structure Unpacks (e m g x y : Nat) (v : BitVec 32) : Prop where
  sign : v.toNat / 2 ^ 31 = g
  widens : Widens e m x y (v.toNat / 2 ^ 23 % 2 ^ 8) (v.toNat % 2 ^ 23)

/-- FUNPACK answers a Float pattern with the sign of the triple that holds what the triple holds (R66). -/
theorem unpackResult_unpacks {s : Nat} {a b c : Word} (h : formatLegal s e m = true) (ha : a.toNat < 2 ^ s)
    (hb : b.toNat < 2 ^ e) (hc : c.toNat < 2 ^ m) :
    ∃ v : BitVec 32, unpackResult s e m a b c = .ok (zext v) ∧ Unpacks e m a.toNat b.toNat c.toNat v := by
  obtain ⟨hs, ⟨he, he'⟩, -, hm⟩ := formatLegal_iff.1 h
  obtain ⟨X, Y, hwidens, heq⟩ := unpackMagnitude_widens he he' hm hc hb
  have hX : X < 2 ^ 8 := Nat.lt_succ_of_le hwidens.exponent_le
  have hY := hwidens.mantissa_lt
  have hg : a.toNat < 2 := ha.trans_le (Nat.pow_le_pow_right (by decide) hs)
  have hlt := fieldsPattern_lt hg hX hY
  have hv : (BitVec.ofNat 32 (fieldsPattern 8 23 a.toNat X Y)).toNat = fieldsPattern 8 23 a.toNat X Y := by
    rw [BitVec.toNat_ofNat, Nat.mod_eq_of_lt hlt]
  obtain ⟨hsign, hexp, hmant⟩ := fieldsPattern_slices hg hX hY
  refine ⟨BitVec.ofNat 32 (fieldsPattern 8 23 a.toNat X Y), ?_, by rw [hv, hsign], by rwa [hv, hexp, hmant]⟩
  have hlow {k : Nat} {z : Word} (hz : z.toNat < 2 ^ k) : (z.setWidth k).toNat = z.toNat := by
    rw [BitVec.toNat_setWidth, Nat.mod_eq_of_lt hz]
  rw [unpackResult, withOperand_fits (fits_iff.2 ha), withOperand_fits (fits_iff.2 hb), withOperand_fits (fits_iff.2 hc),
    hlow ha, hlow hb, hlow hc, heq, Nat.or_comm,
    ← Nat.shiftLeft_add_eq_or_of_lt (exponent_mantissa_lt hX hY), Nat.shiftLeft_eq, ← fieldsPattern_eq hX hY]
  refine congrArg Except.ok (BitVec.eq_of_toNat_eq ?_)
  rw [toNat_zext (by decide), hv, toNat_word (hlt.trans (by decide))]

/-! ### What an unpacked Float is -/

theorem eq_of_slices_eq {v w : BitVec 32} (hsign : v.toNat / 2 ^ 31 = w.toNat / 2 ^ 31)
    (hexp : v.toNat / 2 ^ 23 % 2 ^ 8 = w.toNat / 2 ^ 23 % 2 ^ 8) (hmant : v.toNat % 2 ^ 23 = w.toNat % 2 ^ 23) : v = w :=
  BitVec.eq_of_toNat_eq (by omega)

/-- The fields of a finite Float are known from its magnitude: rounding that to the Float format gives them back. -/
theorem floatUnits_injective {X' Y' : Nat} (hX : X < 255) (hY : Y < 2 ^ 23) (hX' : X' < 255) (hY' : Y' < 2 ^ 23)
    (h : floatUnits X Y = floatUnits X' Y') : X = X' ∧ Y = Y' := by
  have hround {X Y : Nat} (hX : X < 255) (hY : Y < 2 ^ 23) :
      roundToFormat .away (floatUnits X Y) 8 23 = X * 2 ^ 23 + Y := by
    rw [floatUnits_eq]
    exact roundToFormat_fieldsUnits .away le_rfl le_rfl hY hX
  have hsum := (hround hX hY).symm.trans ((congrArg (roundToFormat .away · 8 23) h).trans (hround hX' hY'))
  omega

/-- No two Float patterns hold the same sign, exponent and mantissa of a format. -/
theorem Unpacks.unique {v w : BitVec 32} (hv : Unpacks e m g x y v) (hw : Unpacks e m g x y w) : v = w := by
  have hsign := hv.sign.trans hw.sign.symm
  obtain ⟨hvX, hvY, hvfin, hvspecial⟩ := hv.widens
  obtain ⟨hwX, hwY, hwfin, hwspecial⟩ := hw.widens
  by_cases hx : x = ones e
  · exact eq_of_slices_eq hsign ((hvspecial hx).1.trans (hwspecial hx).1.symm)
      ((hvspecial hx).2.trans (hwspecial hx).2.symm)
  · obtain ⟨hvne, hvunits⟩ := hvfin hx
    obtain ⟨hwne, hwunits⟩ := hwfin hx
    obtain ⟨hexp, hmant⟩ := floatUnits_injective (lt_of_le_of_ne hvX hvne) hvY (lt_of_le_of_ne hwX hwne) hwY
      (hvunits.trans hwunits.symm)
    exact eq_of_slices_eq hsign hexp hmant

/-- Packing an unpacked triple that is no NaN gives its pattern, under either tie rule (R71). -/
theorem Unpacks.packPattern {s : Nat} {v : BitVec 32} (h : formatLegal s e m = true) (hv : Unpacks e m g x y v)
    (hg : g < 2 ^ s) (hx : x < 2 ^ e) (hy : y < 2 ^ m) (hnan : ¬ (x = ones e ∧ y ≠ 0)) (tie : PackTie) (nan : Nat) :
    packPattern tie nan s e m v = g * 2 ^ (e + m) + x * 2 ^ m + y := by
  obtain ⟨hs, ⟨-, he'⟩, -, hm⟩ := formatLegal_iff.1 h
  obtain ⟨-, hexp, hmant⟩ := floatFields_eq v
  obtain ⟨-, -, hfin, hspecial⟩ := hv.widens
  have hsign : s * (v.toNat / 2 ^ 31) = g := by
    rw [hv.sign]
    obtain rfl | rfl : s = 0 ∨ s = 1 := by omega
    · omega
    · omega
  by_cases hones : x = ones e
  · obtain ⟨hX, hY⟩ := hspecial hones
    obtain rfl : y = 0 := by by_contra hy0; exact hnan ⟨hones, hy0⟩
    rw [Nat.zero_mul] at hY
    rw [packPattern_of_not_nan tie nan 0 (by rw [hmant, hY]; simp), packPattern_eq tie hs (Nat.two_pow_pos m),
      hsign, hX, hY, packMagnitude_infinity, hones, Nat.add_zero]
  · obtain ⟨hX, hunits⟩ := hfin hones
    rw [packPattern_of_not_nan tie nan 0 (by rw [hexp]; exact fun h => hX h.1),
      packPattern_eq tie hs (Nat.two_pow_pos m), hsign, packMagnitude_of_finite tie hX, hunits,
      roundToFormat_fieldsUnits tie he' hm hy (lt_of_le_of_ne (le_ones_iff.2 hx) hones), Nat.add_assoc]

theorem patternValue_float (v : BitVec 32) : patternValue floatFormat v.toNat
    = fieldsValue 8 23 (v.toNat / 2 ^ 31) (v.toNat / 2 ^ 23 % 2 ^ 8) (v.toNat % 2 ^ 23) := by
  obtain ⟨hsign, hexp, hmant⟩ := floatFields_eq v
  rw [← hsign, ← hexp, ← hmant]
  rfl

theorem fieldsValue_of_finite (hx : x ≠ ones e) (m g y : Nat) :
    fieldsValue e m g x y = .finite ((-1) ^ g * magnitude e m x y) := if_neg hx

theorem fieldsValue_infinity (e m g : Nat) : fieldsValue e m g (ones e) 0 = .infinity (g = 1) := by
  rw [fieldsValue, if_pos rfl, if_pos rfl]

theorem fieldsValue_nan (hy : y ≠ 0) (e m g : Nat) : fieldsValue e m g (ones e) y = .nan := by
  rw [fieldsValue, if_pos rfl, if_neg hy]

theorem fieldsValue_eq_finite_iff {q : Rat} :
    fieldsValue e m g x y = .finite q ↔ x ≠ ones e ∧ (-1) ^ g * magnitude e m x y = q := by
  unfold fieldsValue
  by_cases hx : x = ones e
  · by_cases hy : y = 0 <;> simp [hx, hy]
  · simp [hx]

theorem fieldsValue_eq_infinity_iff {negative : Bool} :
    fieldsValue e m g x y = .infinity negative ↔ (x = ones e ∧ y = 0) ∧ decide (g = 1) = negative := by
  unfold fieldsValue
  by_cases hx : x = ones e
  · by_cases hy : y = 0 <;> simp [hx, hy]
  · simp [hx]

/-- Of a triple that is no NaN, Float fields hold what it holds exactly when their value is its value (R58, R66). -/
theorem widens_iff_fieldsValue_eq (he : e ≤ 8) (hm : m ≤ 23) (hnan : ¬ (x = ones e ∧ y ≠ 0)) (hX : X ≤ 255)
    (hY : Y < 2 ^ 23) (g : Nat) : Widens e m x y X Y ↔ fieldsValue 8 23 g X Y = fieldsValue e m g x y := by
  by_cases hx : x = ones e
  · obtain rfl : y = 0 := by by_contra hy0; exact hnan ⟨hx, hy0⟩
    subst hx
    rw [fieldsValue_infinity, fieldsValue_eq_infinity_iff, and_iff_left rfl]
    have hzero : 0 * 2 ^ (23 - m) = 0 := Nat.zero_mul _
    exact ⟨fun h => hzero ▸ h.special rfl,
      fun h => ⟨hX, hY, fun hne => absurd rfl hne, fun _ => hzero.symm ▸ h⟩⟩
  · have hsign : ((-1 : Rat) ^ g) ≠ 0 := pow_ne_zero g (by decide)
    have hunit : (2 : Rat) ^ (-149 : Int) ≠ 0 := zpow_ne_zero _ (by decide)
    rw [fieldsValue_of_finite hx, fieldsValue_eq_finite_iff, mul_right_inj' hsign, magnitude_eq he hm,
      magnitude_eq (by decide) (by decide), mul_left_inj' hunit, Nat.cast_inj, ← floatUnits_eq]
    exact ⟨fun h => h.finite hx, fun ⟨hne, hunits⟩ => widens_of_finite (lt_of_le_of_ne hX hne) hY hx hunits⟩

theorem unpacks_iff {v : BitVec 32} (he : e ≤ 8) (hm : m ≤ 23) (hnan : ¬ (x = ones e ∧ y ≠ 0)) :
    Unpacks e m g x y v ↔
      v.toNat / 2 ^ 31 = g ∧ patternValue floatFormat v.toNat = fieldsValue e m g x y := by
  have hX : v.toNat / 2 ^ 23 % 2 ^ 8 ≤ 255 := by omega
  have hY : v.toNat % 2 ^ 23 < 2 ^ 23 := Nat.mod_lt _ (by decide)
  have hwidens := widens_iff_fieldsValue_eq he hm hnan hX hY g
  rw [patternValue_float]
  exact ⟨fun ⟨hsign, h⟩ => ⟨hsign, hsign.symm ▸ hwidens.1 h⟩,
    fun ⟨hsign, h⟩ => ⟨hsign, hwidens.2 (hsign ▸ h)⟩⟩

end

/-! ### FUNPACK and F16TOF32: O48, O50, O54, O55 -/

section
variable {s : State} {fs fe fm g x y : Nat} {v : BitVec 32}

theorem fits_eq_false_iff {z : Word} {n : Nat} : fits z n = false ↔ 2 ^ n ≤ z.toNat := by simp [fits]

theorem exec_funpack (h : formatLegal fs fe fm = true) (ha : s.a.toNat < 2 ^ fs) (hb : s.b.toNat < 2 ^ fe)
    (hc : s.c.toNat < 2 ^ fm) :
    ∃ v : BitVec 32, exec (.funpack fs fe fm) s = .next (s.answerOk (zext v))
      ∧ Unpacks fe fm s.a.toNat s.b.toNat s.c.toNat v := by
  obtain ⟨v, hres, hv⟩ := unpackResult_unpacks h ha hb hc
  exact ⟨v, exec_of_operate_ok (i := .funpack fs fe fm) h hres, hv⟩

/-- The sign and the value of an unpacked Float, or the shifted payload of a NaN (R66). -/
theorem Unpacks.value_and_payload (hv : Unpacks fe fm g x y v) (he : fe ≤ 8) (hm : fm ≤ 23) :
    (zext v).toNat < 2 ^ 32 ∧ (zext v).toNat / 2 ^ 31 = g
      ∧ (¬ (x = ones fe ∧ y ≠ 0) → patternValue floatFormat (zext v).toNat = fieldsValue fe fm g x y)
      ∧ (x = ones fe → y ≠ 0 →
          (zext v).toNat / 2 ^ 23 % 2 ^ 8 = 255 ∧ (zext v).toNat % 2 ^ 23 = y * 2 ^ (23 - fm)) := by
  rw [toNat_zext (by decide)]
  exact ⟨v.isLt, hv.sign, fun hnan => ((unpacks_iff he hm hnan).1 hv).2, fun hx _ => hv.widens.special hx⟩

/-- FPACK of an unpacked triple that is no NaN answers the triple's pattern (R71). -/
theorem exec_fpack_of_unpacks (h : formatLegal fs fe fm = true) (hv : Unpacks fe fm g x y v) (hg : g < 2 ^ fs)
    (hx : x < 2 ^ fe) (hy : y < 2 ^ fm) (hnan : ¬ (x = ones fe ∧ y ≠ 0)) (ha : s.a = zext v) :
    exec (.fpack fs fe fm) s = .next (s.answerOk (word (g * 2 ^ (fe + fm) + x * 2 ^ fm + y))) := by
  rw [exec_fpack h ha, hv.packPattern h hg hx hy hnan]

end

/-- Settles O48: the unpacked Float has the sign and holds what the triple holds. -/
theorem funpackWidensExactly : Obligations.FunpackWidensExactly := by
  refine ⟨?ok, ?wide, fun s q rest h hop => step_of_presents_formatRange h (.inr hop)⟩
  case ok =>
    intro fs fe fm s h ha hb hc
    obtain ⟨-, ⟨-, he⟩, -, hm⟩ := formatLegal_iff.1 h
    obtain ⟨v, hexec, hv⟩ := exec_funpack h ha hb hc
    exact ⟨zext v, hexec, hv.value_and_payload he hm⟩
  case wide =>
    intro fs fe fm s h hwide
    simp only [← fits_eq_false_iff] at hwide
    exact exec_of_operandTooWide (i := .funpack fs fe fm) h ((operandTooWide_three rfl).2 hwide)

section
variable (h : BitVec 16)

/-- The fields of a Half pattern are in range. -/
theorem halfFields_lt : h.toNat / 2 ^ 15 < 2 ^ 1 ∧ h.toNat / 2 ^ 10 % 2 ^ 5 < 2 ^ 5 ∧ h.toNat % 2 ^ 10 < 2 ^ 10 := by
  omega

/-- The fields of a Half pattern make it up. -/
theorem halfFields_sum :
    h.toNat / 2 ^ 15 * 2 ^ (5 + 10) + h.toNat / 2 ^ 10 % 2 ^ 5 * 2 ^ 10 + h.toNat % 2 ^ 10 = h.toNat := by
  omega

theorem patternValue_half : patternValue halfFormat h.toNat
    = fieldsValue 5 10 (h.toNat / 2 ^ 15) (h.toNat / 2 ^ 10 % 2 ^ 5) (h.toNat % 2 ^ 10) := by
  have hsign : signField 5 10 h.toNat = h.toNat / 2 ^ 15 := signField_of_lt h.isLt
  rw [← hsign, ← expField_eq, ← mantField_eq]
  rfl

/-- F16TOF32 unpacks the three fields of the Half (R68). -/
theorem f16tof32Result_zext : f16tof32Result (zext h) =
    unpackResult 1 5 10 (word (h.toNat / 2 ^ 15)) (word (h.toNat / 2 ^ 10 % 2 ^ 5)) (word (h.toNat % 2 ^ 10)) := by
  have hsign : signField 5 10 h.toNat = h.toNat / 2 ^ 15 := signField_of_lt h.isLt
  rw [f16tof32Result, withOperand_zext (by decide), hsign, expField_eq, mantField_eq]

theorem f16tof32Result_unpacks : ∃ v : BitVec 32, f16tof32Result (zext h) = .ok (zext v)
    ∧ Unpacks 5 10 (h.toNat / 2 ^ 15) (h.toNat / 2 ^ 10 % 2 ^ 5) (h.toNat % 2 ^ 10) v := by
  obtain ⟨hg, hx, hy⟩ := halfFields_lt h
  have toNat_field {k n : Nat} (hk : k < 2 ^ n) (hn : 2 ^ n ≤ 2 ^ 64) : (word k).toNat = k :=
    toNat_word (hk.trans_le hn)
  have hg' := toNat_field hg (by decide)
  have hx' := toNat_field hx (by decide)
  have hy' := toNat_field hy (by decide)
  obtain ⟨v, hres, hv⟩ := unpackResult_unpacks (s := 1) (e := 5) (m := 10) rfl
    (hg'.trans_lt hg) (hx'.trans_lt hx) (hy'.trans_lt hy)
  rw [hg', hx', hy'] at hv
  exact ⟨v, (f16tof32Result_zext h).trans hres, hv⟩

end

theorem exec_f16tof32 {s : State} {h : BitVec 16} (ha : s.a = zext h) :
    ∃ v : BitVec 32, exec .f16tof32 s = .next (s.answerOk (zext v))
      ∧ Unpacks 5 10 (h.toNat / 2 ^ 15) (h.toNat / 2 ^ 10 % 2 ^ 5) (h.toNat % 2 ^ 10) v := by
  obtain ⟨v, hres, hv⟩ := f16tof32Result_unpacks h
  exact ⟨v, exec_of_operate_ok (i := .f16tof32) rfl (ha ▸ hres), hv⟩

/-- F32TOF16 of a Float that holds what a Half holds that is no NaN answers the Half (R71). -/
theorem exec_f32tof16_of_unpacks {s : State} {v : BitVec 32} {h : BitVec 16}
    (hv : Unpacks 5 10 (h.toNat / 2 ^ 15) (h.toNat / 2 ^ 10 % 2 ^ 5) (h.toNat % 2 ^ 10) v)
    (hnan : ¬ (h.toNat / 2 ^ 10 % 2 ^ 5 = 31 ∧ h.toNat % 2 ^ 10 ≠ 0)) (ha : s.a = zext v) :
    exec .f32tof16 s = .next (s.answerOk (zext h)) := by
  obtain ⟨hg, hx, hy⟩ := halfFields_lt h
  have hword : word h.toNat = zext h := BitVec.eq_of_toNat_eq (by
    rw [toNat_zext (by decide), toNat_word (h.isLt.trans (by decide))])
  rw [exec_f32tof16, exec_fpack_of_unpacks rfl hv hg hx hy hnan ha, halfFields_sum, hword]

/-- Settles O50: F16TOF32 unpacks the Half's fields as FUNPACK at `<1,5,10>` does. -/
theorem f16tof32WidensExactly : Obligations.F16tof32WidensExactly := by
  refine ⟨fun s h ha => ?exact, fun s t h ha hta htb htc => ?same, widthChecked_of_operandWidths rfl rfl⟩
  case exact =>
    obtain ⟨v, hexec, hv⟩ := exec_f16tof32 ha
    obtain ⟨hlt, hsign, hvalue, hpayload⟩ := hv.value_and_payload (by decide) (by decide)
    exact ⟨zext v, ⟨hlt, hsign, fun hnan => (hvalue hnan).trans (patternValue_half h).symm, hpayload⟩, hexec⟩
  case same =>
    obtain ⟨v, hres, -⟩ := f16tof32Result_unpacks h
    have htres : unpackResult 1 5 10 t.a t.b t.c = .ok (zext v) := by
      rw [hta, htb, htc, ← f16tof32Result_zext, hres]
    exact ⟨zext v, exec_of_operate_ok (i := .f16tof32) rfl (ha ▸ hres),
      exec_of_operate_ok (i := .funpack 1 5 10) rfl htres⟩

/-- Settles O54: an unpacked Float holds exactly what the triple holds, so packing it meets no tie and rounds nothing. -/
theorem packOfUnpackIsTheTriple : Obligations.PackOfUnpackIsTheTriple := by
  refine ⟨fun fs fe fm s t h ha hb hc hnan => ?triple, fun h s t ha hnan => ?half⟩
  case triple =>
    obtain ⟨v, hexec, hv⟩ := exec_funpack h ha hb hc
    refine ⟨zext v, hexec, exec_fpack_of_unpacks h hv ha hb hc hnan, fun tie nan => ?_⟩
    rw [setWidth_zext (by decide), hv.packPattern h ha hb hc hnan]
  case half =>
    obtain ⟨v, hexec, hv⟩ := exec_f16tof32 ha
    exact ⟨zext v, hexec, exec_f32tof16_of_unpacks hv hnan⟩

/-- Settles O55: a Float with the sign and the value of a Half is the one that Half unpacks to. -/
theorem unpackOfPackIsTheFloatWhenExact : Obligations.UnpackOfPackIsTheFloatWhenExact := by
  intro f h s t ha hne hvalue hsign
  rw [patternValue_half] at hvalue hne
  have hnan : ¬ (h.toNat / 2 ^ 10 % 2 ^ 5 = 31 ∧ h.toNat % 2 ^ 10 ≠ 0) := fun ⟨hx, hy⟩ =>
    hne (hx ▸ fieldsValue_nan hy 5 10 _)
  have hf := (unpacks_iff (e := 5) (m := 10) (by decide) (by decide) hnan).2 ⟨hsign, hvalue⟩
  refine ⟨zext h, exec_f32tof16_of_unpacks hf hnan ha, fun hta => ?_⟩
  obtain ⟨v, hexec, hv⟩ := exec_f16tof32 hta
  rwa [hv.unique hf] at hexec

/-! ### Integers as Doubles: O51 to O53 -/

section
variable {E M b k : Nat} {a : Word}

/-- A Double of sign 0 has a rational value when its exponent field is not all ones, and that is its magnitude (R58). -/
theorem patternValue_double_eq_finite_iff (hs : signField 11 52 b = 0) {q : Rat} :
    patternValue doubleFormat b = .finite q ↔
      expField 11 52 b ≠ 2047 ∧ magnitude 11 52 (expField 11 52 b) (mantField 52 b) = q := by
  have hfields : patternValue doubleFormat b
      = fieldsValue 11 52 (signField 11 52 b) (expField 11 52 b) (mantField 52 b) := rfl
  rw [hfields, fieldsValue_eq_finite_iff, hs, pow_zero, one_mul]
  rfl

theorem magnitude_eq_zero_iff {e m x y : Nat} : magnitude e m x y = 0 ↔ x = 0 ∧ y = 0 := by
  have hpow (p : Int) : (2 : Rat) ^ p ≠ 0 := zpow_ne_zero p (by decide)
  unfold magnitude
  by_cases hx : x = 0
  · simp [hx, hpow]
  · have hsig : (2 : Rat) ^ m + y ≠ 0 := by positivity
    simp [hx, hsig, hpow]

theorem patternValue_double_zero : patternValue doubleFormat 0 = .finite 0 :=
  (patternValue_double_eq_finite_iff rfl).2 ⟨by decide, magnitude_eq_zero_iff.2 ⟨rfl, rfl⟩⟩

theorem signField_double_eq_zero_iff : signField 11 52 a.toNat = 0 ↔ a.toNat < 2 ^ 63 := by
  rw [signField_of_lt a.isLt]
  exact Nat.div_eq_zero_iff_lt (by decide)

theorem getLsbD_63_eq_false_iff : a.getLsbD 63 = false ↔ a.toNat < 2 ^ 63 := by
  rw [← signField_double_eq_zero_iff, signField_eq, BitVec.getLsbD, Nat.testBit_eq_decide_div_mod_eq]
  simp

/-- Where the last mantissa bit weighs at most 1, the magnitude is the significand over a power of two. -/
theorem magnitude_double_of_le (hE : E ≠ 0) (hle : E ≤ 1075) :
    magnitude 11 52 E M = (2 ^ 52 + M) / 2 ^ (1075 - E) := by
  have hexp : (E : Int) - bias 11 - (52 : Nat) = -((1075 - E : Nat) : Int) := by
    rw [show bias 11 = 1023 from rfl]
    omega
  rw [magnitude, if_neg hE, hexp, zpow_neg, zpow_natCast, div_eq_mul_inv]

theorem magnitude_double_lt_one (hM : M < 2 ^ 52) (hE : E < 1023) : magnitude 11 52 E M < 1 := by
  have hM' : (M : Rat) < 2 ^ 52 := by exact_mod_cast hM
  have fraction (sig : Rat) (h0 : 0 ≤ sig) (hsig : sig < 2 ^ 53) (p : Int) (hp : p ≤ -53) : sig * 2 ^ p < 1 := by
    have hpow : (2 : Rat) ^ p ≤ 2 ^ (-53 : Int) := zpow_le_zpow_right₀ (by decide) hp
    calc sig * 2 ^ p ≤ sig * 2 ^ (-53 : Int) := mul_le_mul_of_nonneg_left hpow h0
      _ < 2 ^ 53 * 2 ^ (-53 : Int) := mul_lt_mul_of_pos_right hsig (by positivity)
      _ = 1 := by norm_num
  have hbias : bias 11 = 1023 := rfl
  unfold magnitude
  split
  · exact fraction _ (by positivity) (by linarith) _ (by omega)
  · exact fraction _ (by positivity) (by linarith) _ (by omega)

theorem le_magnitude_double (hE : 1055 ≤ E) : 2 ^ 32 ≤ magnitude 11 52 E M := by
  have hexp : (-20 : Int) ≤ (E : Int) - bias 11 - (52 : Nat) := by
    rw [show bias 11 = 1023 from rfl]
    omega
  have hpow : (2 : Rat) ^ (-20 : Int) ≤ 2 ^ ((E : Int) - bias 11 - (52 : Nat)) :=
    zpow_le_zpow_right₀ (by decide) hexp
  rw [magnitude, if_neg (by omega)]
  have hsig : (2 : Rat) ^ 52 ≤ 2 ^ 52 + M := by simp
  exact (by norm_num : (2 : Rat) ^ 32 = 2 ^ 52 * 2 ^ (-20 : Int)).trans_le
    (mul_le_mul hsig hpow (by positivity) (by positivity))

/-- The Doubles that hold a nonzero 32-bit integer, by their fields (R69, R70). -/
theorem magnitude_double_eq_natCast_iff (hM : M < 2 ^ 52) (hk0 : k ≠ 0) (hk : k < 2 ^ 32) :
    magnitude 11 52 E M = k ↔ (1023 ≤ E ∧ E ≤ 1054) ∧ 2 ^ 52 + M = k * 2 ^ (1075 - E) := by
  have hmul (hE : 1023 ≤ E ∧ E ≤ 1054) : magnitude 11 52 E M = k ↔ 2 ^ 52 + M = k * 2 ^ (1075 - E) := by
    rw [magnitude_double_of_le (by omega) (by omega), div_eq_iff (by positivity)]
    exact_mod_cast Iff.rfl
  refine ⟨fun h => ?_, fun ⟨hE, h⟩ => (hmul hE).2 h⟩
  have hlow : 1023 ≤ E := by
    by_contra hlt
    have := magnitude_double_lt_one hM (Nat.lt_of_not_le hlt)
    rw [h] at this
    exact hk0 (Nat.lt_one_iff.1 (by exact_mod_cast this))
  have hhigh : E ≤ 1054 := by
    by_contra hgt
    have := le_magnitude_double (M := M) (Nat.lt_of_not_le hgt)
    rw [h] at this
    exact hk.not_ge (by exact_mod_cast this)
  exact ⟨⟨hlow, hhigh⟩, (hmul ⟨hlow, hhigh⟩).1 h⟩

/-- U32TOF64 of a nonzero integer puts its leading bit at the top of the significand (R69). -/
theorem u32tof64Pattern_of_ne_zero (hk0 : k ≠ 0) (hk : k < 2 ^ 32) :
    ∃ M, M < 2 ^ 52 ∧ 2 ^ 52 + M = k * 2 ^ (52 - hiIdx k)
      ∧ hiIdx k < 32 ∧ u32tof64Pattern k = fieldsPattern 11 52 0 (1023 + hiIdx k) M := by
  obtain ⟨hlow, hhigh⟩ := hiIdx_spec hk0
  have hh : hiIdx k < 32 := (Nat.log2_lt hk0).2 hk
  have hlead : (2 : Nat) ^ 52 = 2 ^ hiIdx k * 2 ^ (52 - hiIdx k) := by
    rw [← Nat.pow_add, Nat.add_sub_cancel' (by omega)]
  have hrest : k - 2 ^ hiIdx k < 2 ^ hiIdx k := by
    rw [Nat.pow_succ] at hhigh
    omega
  refine ⟨(k - 2 ^ hiIdx k) * 2 ^ (52 - hiIdx k), ?_, ?_, hh, ?_⟩
  · conv_rhs => rw [hlead]
    exact Nat.mul_lt_mul_of_pos_right hrest (Nat.two_pow_pos _)
  · rw [hlead, ← Nat.add_mul, Nat.add_sub_cancel' hlow]
  · rw [u32tof64Pattern, if_neg hk0, fieldsPattern, Nat.zero_shiftLeft, Nat.zero_or, Nat.shiftLeft_eq _ (52 - hiIdx k)]

/-- A pattern of sign 0 with fields in range is the Double of its magnitude, unless the exponent is all ones. -/
theorem patternValue_double_fieldsPattern (hE : E < 2047) (hM : M < 2 ^ 52) :
    patternValue doubleFormat (fieldsPattern 11 52 0 E M) = .finite (magnitude 11 52 E M) := by
  have hE' : E < 2 ^ 11 := by omega
  rw [patternValue_double_eq_finite_iff (signField_fieldsPattern (by decide) hE' hM), expField_fieldsPattern hE' hM,
    mantField_fieldsPattern hE' hM]
  exact ⟨hE.ne, rfl⟩

theorem u32tof64Pattern_value (hk : k < 2 ^ 32) :
    u32tof64Pattern k < 2 ^ 63 ∧ patternValue doubleFormat (u32tof64Pattern k) = .finite k := by
  by_cases hk0 : k = 0
  · subst hk0
    exact ⟨by decide, patternValue_double_zero⟩
  · obtain ⟨M, hM, hsum, hh, hpattern⟩ := u32tof64Pattern_of_ne_zero hk0 hk
    have hE : 1023 + hiIdx k < 2 ^ 11 := by omega
    have hshift : 1075 - (1023 + hiIdx k) = 52 - hiIdx k := by omega
    have hvalue : magnitude 11 52 (1023 + hiIdx k) M = k :=
      (magnitude_double_eq_natCast_iff hM hk0 hk).2 ⟨by omega, by rw [hsum, hshift]⟩
    rw [hpattern, patternValue_double_fieldsPattern (by omega) hM, hvalue, fieldsPattern_eq hE hM, Nat.zero_mul,
      Nat.zero_add]
    exact ⟨exponent_mantissa_lt hE hM, rfl⟩

theorem u32tof64Result_zext (i : BitVec 32) : u32tof64Result (zext i) = .ok (word (u32tof64Pattern i.toNat)) :=
  withOperand_zext (by decide) i

/-- F64TOU32 of a nonzero Double reads the integer off the significand when no fraction bit is set (R70). -/
theorem f64tou32Result_of_ne_zero (ha : a ≠ 0) : f64tou32Result a =
    if signField 11 52 a.toNat = 0 ∧ 1023 ≤ expField 11 52 a.toNat ∧ expField 11 52 a.toNat ≤ 1054
        ∧ mantField 52 a.toNat &&& ones (52 - (expField 11 52 a.toNat - 1023)) = 0
      then .ok (word ((2 ^ 52 + mantField 52 a.toNat) >>> (52 - (expField 11 52 a.toNat - 1023))))
      else .error .notAU32ValuedDouble := if_neg ha

/-- The low mantissa bits are all zero when the significand is a multiple of the weight above them. -/
theorem and_ones_eq_zero_iff {n : Nat} (hn : n ≤ 52) : M &&& ones n = 0 ↔ 2 ^ n ∣ 2 ^ 52 + M := by
  rw [Nat.dvd_add_right (Nat.pow_dvd_pow 2 hn), ones, Nat.and_two_pow_sub_one_eq_mod, Nat.dvd_iff_mod_eq_zero]

/-- A Double of sign 0 that holds a nonzero 32-bit integer, by its fields. -/
theorem patternValue_double_eq_natCast_iff (hs : signField 11 52 b = 0) (hk0 : k ≠ 0) (hk : k < 2 ^ 32) :
    patternValue doubleFormat b = .finite k ↔ (1023 ≤ expField 11 52 b ∧ expField 11 52 b ≤ 1054)
      ∧ 2 ^ 52 + mantField 52 b = k * 2 ^ (1075 - expField 11 52 b) := by
  have hM : mantField 52 b < 2 ^ 52 := le_ones_iff.1 (mantField_le 52 b)
  rw [patternValue_double_eq_finite_iff hs, magnitude_double_eq_natCast_iff hM hk0 hk, and_iff_right_iff_imp]
  rintro ⟨⟨-, hhigh⟩, -⟩
  omega

/-- The only Double of sign 0 with value 0 is the pattern 0. -/
theorem eq_zero_of_patternValue_double (hs : signField 11 52 a.toNat = 0)
    (hv : patternValue doubleFormat a.toNat = .finite 0) : a = 0 := by
  obtain ⟨hE, hM⟩ := magnitude_eq_zero_iff.1 ((patternValue_double_eq_finite_iff hs).1 hv).2
  have hfields := fieldsPattern_of_fields (e := 11) (m := 52) a.isLt
  rw [hs, hE, hM] at hfields
  exact BitVec.eq_of_toNat_eq hfields.symm

/-- An answer of F64TOU32 is the integer that the Double, of sign 0, holds (R70). -/
theorem patternValue_of_f64tou32Result {r : Word} (h : f64tou32Result a = .ok r) :
    signField 11 52 a.toNat = 0 ∧ r.toNat < 2 ^ 32 ∧ patternValue doubleFormat a.toNat = .finite r.toNat := by
  by_cases ha : a = 0
  · subst ha
    obtain rfl : (0 : Word) = r := Except.ok.inj h
    exact ⟨rfl, by decide, patternValue_double_zero⟩
  rw [f64tou32Result_of_ne_zero ha] at h
  split at h
  case isFalse => cases h
  case isTrue hcond =>
    obtain ⟨hs, hlow, hhigh, hfraction⟩ := hcond
    have hM : mantField 52 a.toNat < 2 ^ 52 := le_ones_iff.1 (mantField_le 52 _)
    have hshift : 52 - (expField 11 52 a.toNat - 1023) = 1075 - expField 11 52 a.toNat := by omega
    rw [hshift, and_ones_eq_zero_iff (by omega)] at hfraction
    rw [hshift, Nat.shiftRight_eq_div_pow] at h
    have hsum := (Nat.div_mul_cancel hfraction).symm
    have hpow : 2 ^ 21 ≤ 2 ^ (1075 - expField 11 52 a.toNat) := Nat.pow_le_pow_right (by decide) (by omega)
    generalize (2 ^ 52 + mantField 52 a.toNat) / 2 ^ (1075 - expField 11 52 a.toNat) = k at h hsum
    obtain rfl : word k = r := Except.ok.inj h
    have hk0 : k ≠ 0 := by rintro rfl; omega
    have hk : k < 2 ^ 32 := by
      by_contra hge
      have := Nat.mul_le_mul (Nat.le_of_not_lt hge) hpow
      omega
    rw [toNat_word (hk.trans (by decide))]
    exact ⟨hs, hk, (patternValue_double_eq_natCast_iff hs hk0 hk).2 ⟨⟨hlow, hhigh⟩, hsum⟩⟩

/-- F64TOU32 of a Double of sign 0 that holds a 32-bit integer answers the integer (R70). -/
theorem f64tou32Result_of_patternValue {r : Word} (hs : signField 11 52 a.toNat = 0) (hr : r.toNat < 2 ^ 32)
    (hv : patternValue doubleFormat a.toNat = .finite r.toNat) : f64tou32Result a = .ok r := by
  by_cases hr0 : r.toNat = 0
  · rw [hr0] at hv
    obtain rfl := eq_zero_of_patternValue_double hs hv
    exact congrArg Except.ok (BitVec.eq_of_toNat_eq hr0.symm)
  obtain ⟨⟨hlow, hhigh⟩, hsum⟩ := (patternValue_double_eq_natCast_iff hs hr0 hr).1 hv
  have ha : a ≠ 0 := by
    rintro rfl
    exact absurd hlow (by decide)
  have hshift : 52 - (expField 11 52 a.toNat - 1023) = 1075 - expField 11 52 a.toNat := by omega
  have hfraction := (and_ones_eq_zero_iff (by omega)).2 (Dvd.intro_left _ hsum.symm)
  rw [f64tou32Result_of_ne_zero ha, hshift, if_pos ⟨hs, hlow, hhigh, hfraction⟩, hsum, Nat.shiftRight_eq_div_pow,
    Nat.mul_div_cancel _ (Nat.two_pow_pos _)]
  exact congrArg Except.ok (BitVec.eq_of_toNat_eq (toNat_word r.isLt))

theorem f64tou32Result_eq_ok_iff {r : Word} : f64tou32Result a = .ok r ↔
    signField 11 52 a.toNat = 0 ∧ r.toNat < 2 ^ 32 ∧ patternValue doubleFormat a.toNat = .finite r.toNat :=
  ⟨patternValue_of_f64tou32Result, fun ⟨hs, hr, hv⟩ => f64tou32Result_of_patternValue hs hr hv⟩

theorem holdsU32_iff : HoldsU32 a ↔ ∃ r, f64tou32Result a = .ok r := by
  simp only [f64tou32Result_eq_ok_iff, signField_double_eq_zero_iff, HoldsU32, getLsbD_63_eq_false_iff]
  constructor
  · rintro ⟨hs, k, hk, hv⟩
    refine ⟨word k, hs, ?_⟩
    rw [toNat_word (hk.trans (by decide))]
    exact ⟨hk, hv⟩
  · rintro ⟨r, hs, hr, hv⟩
    exact ⟨hs, r.toNat, hr, hv⟩

/-- The bias of the double bit-trick with an integer in its low bits (R69). -/
theorem toNat_doubleBias_or (i : BitVec 32) : ((0x4338000000000000 : Word) ||| zext i).toNat
    = fieldsPattern 11 52 0 0x433 (2 ^ 51 + i.toNat) := by
  have hi : i.toNat < 2 ^ 51 := i.isLt.trans (by decide)
  have hbias : (0x4338000000000000 : Word).toNat = 0x867 <<< 51 := rfl
  rw [BitVec.toNat_or, toNat_zext (by decide), hbias, ← Nat.shiftLeft_add_eq_or_of_lt hi,
    fieldsPattern_eq (by decide) (by omega)]
  omega

end

/-- Settles O51: the significand of the answer is the integer, shifted until its leading bit is the hidden one. -/
theorem u32tof64IsExact : Obligations.U32tof64IsExact := by
  refine ⟨?exact, fun i => ?trick, widthChecked_of_operandWidths rfl rfl⟩
  case exact =>
    refine answersAll_of_operate (i := .u32tof64) rfl fun draw i b c =>
      ⟨word (u32tof64Pattern i.toNat), ?_, u32tof64Result_zext i⟩
    obtain ⟨hlt, hv⟩ := u32tof64Pattern_value i.isLt
    rw [getLsbD_63_eq_false_iff, toNat_word (hlt.trans (by decide))]
    exact ⟨hlt, hv⟩
  case trick =>
    have hi := i.isLt
    rw [toNat_doubleBias_or, patternValue_double_fieldsPattern (by decide) (by omega),
      magnitude_double_of_le (by decide) (by decide)]
    push_cast
    norm_num
    ring

/-- Settles O52: F64TOU32 answers a result exactly on the Doubles that hold a 32-bit integer, and it is that integer. -/
theorem f64tou32IsExactOnIntegerDoubles : Obligations.F64tou32IsExactOnIntegerDoubles := by
  constructor
  · intro s h
    obtain ⟨r, hres⟩ := holdsU32_iff.1 h
    obtain ⟨-, hr, hv⟩ := f64tou32Result_eq_ok_iff.1 hres
    exact ⟨r, hv, hr, exec_of_operate_ok (i := .f64tou32) rfl hres⟩
  · intro s h
    cases hres : f64tou32Result s.a with
    | ok r => exact absurd (holdsU32_iff.2 ⟨r, hres⟩) h
    | error reason => exact exec_of_operate_error (i := .f64tou32) rfl hres

/-- Settles O53: the Double of U32TOF64 holds the integer, so F64TOU32 answers it. -/
theorem integerDoubleRoundTrip : Obligations.IntegerDoubleRoundTrip := by
  intro i s t ha
  obtain ⟨r, ⟨hsign, hv⟩, hexec⟩ := u32tof64IsExact.1 s i ha
  refine ⟨r, hexec, fun hta => exec_of_operate_ok (i := .f64tou32) rfl ?_⟩
  have hi : (zext i).toNat = i.toNat := toNat_zext (by decide) i
  refine f64tou32Result_eq_ok_iff.2 ?_
  rw [hta, hi, signField_double_eq_zero_iff, ← getLsbD_63_eq_false_iff]
  exact ⟨hsign, i.isLt, hv⟩

end Sys2Proof.Machine
end

/-! ## The status of a response, by the command and then by the operands: O17 -/
section

namespace Sys2Proof.Machine

/-- The operands are outside the documented domain of the operation, widths apart: the other rows of the table of R75. -/
def OutsideDomain (i : Instr) (a b c : Word) : Prop :=
  match i with
  | .tzcnt_32 | .tzcnt_64 | .idxlsb_32 | .idxlsb_64 | .lzcnt_32 | .lzcnt_64 | .idxmsb_32 | .idxmsb_64
  | .msb_32 | .msb_64 | .log2_32 | .log2_64 | .flp2_32 | .flp2_64 => a = 0
  | .clp2_32 => a = 0 ∨ 2 ^ 31 < a.toNat
  | .clp2_64 => a = 0 ∨ 2 ^ 63 < a.toNat
  | .idxbit_32 | .idxbit_64 => ¬ ∃ k, a.toNat = 2 ^ k
  | .idxexp_32 | .idxexp_64 => ¬ ∃ k, a.toNat = ones (k + 1)
  | .bext_32 => 32 < b.toNat + c.toNat
  | .bext_64 => 64 < b.toNat + c.toNat
  | .u32tou24 => 2 ^ 24 ≤ a.toNat
  | .f64tou32 => ¬ HoldsU32 a
  | _ => False

/-- Read instruction by instruction, the causes of R75 are a too wide operand and the one row the instruction stands in. -/
theorem undefCause_iff {i : Instr} {a b c : Word} :
    UndefCause i a b c ↔ OperandTooWide i a b c ∨ OutsideDomain i a b c := by
  refine or_congr_right ?_
  cases i <;> simp [OutsideDomain]

/-! ### When an operation answers `UNDEF` -/

section
variable {a b c : Word} {l m n : Nat}

@[simp] theorem statusOf_ok (r : Word) : statusOf (.ok r) = .ok := rfl

@[simp] theorem statusOf_error (reason : UndefReason) : statusOf (.error reason) = .undef := rfl

theorem ite_ok_undef_iff {p : Prop} [Decidable p] {r : Word} {reason : UndefReason} :
    statusOf (if p then .ok r else .error reason) = .undef ↔ ¬ p := by
  split <;> simp [*]

theorem ite_error_undef_iff {p : Prop} [Decidable p] {reason : UndefReason} {res : Result} :
    statusOf (if p then .error reason else res) = .undef ↔ p ∨ statusOf res = .undef := by
  split <;> simp [*]

/-- An operand read is `UNDEF` when the operand is too wide or what follows the read is. -/
theorem withOperand_undef_iff {k : BitVec n → Result} :
    statusOf (withOperand a n k) = .undef ↔ fits a n = false ∨ statusOf (k (a.setWidth n)) = .undef := by
  obtain ⟨hfit, h⟩ | ⟨hfit, h⟩ := withOperand_cases (k := k) a <;> simp [hfit, h]

/-- The same, where what follows the read is decided on an operand known to be a zero extension. -/
theorem withOperand_undef_iff_of_zext (hn : n ≤ 64) {k : BitVec n → Result} {p : Prop}
    (hk : ∀ v, a = zext v → (statusOf (k v) = .undef ↔ p)) :
    statusOf (withOperand a n k) = .undef ↔ fits a n = false ∨ p := by
  rw [withOperand_undef_iff]
  cases hfit : fits a n with
  | false => simp
  | true => simpa using hk _ (zext_setWidth_of_fits hn hfit).symm

/-! ### Operations with no cause but a too wide operand -/

theorem withOperand_one_undef_iff {f : BitVec l → Word} :
    statusOf (withOperand a l fun x => .ok (f x)) = .undef ↔ fits a l = false := by
  simp [withOperand_undef_iff]

theorem withOperand_two_undef_iff {f : BitVec l → BitVec m → Word} :
    statusOf (withOperand a l fun x => withOperand b m fun y => .ok (f x y)) = .undef
      ↔ fits a l = false ∨ fits b m = false := by
  simp [withOperand_undef_iff]

theorem withOperand_three_undef_iff {f : BitVec l → BitVec m → BitVec n → Word} :
    statusOf (withOperand a l fun x => withOperand b m fun y => withOperand c n fun z => .ok (f x y z)) = .undef
      ↔ fits a l = false ∨ fits b m = false ∨ fits c n = false := by
  simp [withOperand_undef_iff]

/-- The fields of a Half fit the widths they are unpacked at, so F16TOF32 has no cause but its own width (R68). -/
theorem f16tof32Result_undef_iff : statusOf (f16tof32Result a) = .undef ↔ fits a 16 = false := by
  refine (withOperand_undef_iff_of_zext (p := False) (by decide) ?_).trans (or_iff_left id)
  rintro v rfl
  obtain ⟨r, hr, -⟩ := f16tof32Result_unpacks (h := v)
  rw [f16tof32Result, withOperand_zext (by decide)] at hr
  simp [hr]

/-! ### Operations with a domain -/

theorem zext_eq_zero_iff (hn : n ≤ 64) {v : BitVec n} : zext v = 0 ↔ v = 0 := by
  simp [← BitVec.toNat_inj, hn]

theorem withOperand_nonzero_undef_iff (hn : n ≤ 64) {f : BitVec n → Word} :
    statusOf (withOperand a n fun v => if v = 0 then .error .zeroInput else .ok (f v)) = .undef
      ↔ fits a n = false ∨ a = 0 := by
  refine withOperand_undef_iff_of_zext hn ?_
  rintro v rfl
  rw [ite_error_undef_iff, zext_eq_zero_iff hn]
  simp

theorem clp2Result_undef_iff (hn : n ≤ 64) :
    statusOf (clp2Result n a) = .undef ↔ fits a n = false ∨ a = 0 ∨ 2 ^ (n - 1) < a.toNat := by
  refine withOperand_undef_iff_of_zext hn ?_
  rintro v rfl
  rw [ite_error_undef_iff, ite_error_undef_iff, zext_eq_zero_iff hn, toNat_zext hn]
  simp

theorem idxbitResult_undef_iff (hn : n ≤ 64) :
    statusOf (idxbitResult n a) = .undef ↔ fits a n = false ∨ ¬ ∃ k, a.toNat = 2 ^ k := by
  refine withOperand_undef_iff_of_zext hn ?_
  rintro v rfl
  rw [ite_ok_undef_iff, pop_eq_one_iff, toNat_zext hn]

theorem idxexpResult_undef_iff (hn : n ≤ 64) :
    statusOf (idxexpResult n a) = .undef ↔ fits a n = false ∨ ¬ ∃ k, a.toNat = ones (k + 1) := by
  refine withOperand_undef_iff_of_zext hn ?_
  rintro v rfl
  rw [ite_ok_undef_iff, isExpandedMask_iff, toNat_zext hn]

theorem bextResult_undef_iff :
    statusOf (bextResult n a b c) = .undef ↔ fits a n = false ∨ n < b.toNat + c.toNat := by
  rw [bextResult, withOperand_undef_iff, ite_ok_undef_iff, Nat.not_le]

theorem u32tou24Result_undef_iff :
    statusOf (u32tou24Result a) = .undef ↔ fits a 32 = false ∨ 2 ^ 24 ≤ a.toNat := by
  refine withOperand_undef_iff_of_zext (by decide) ?_
  rintro v rfl
  rw [ite_ok_undef_iff, Nat.not_lt, toNat_zext (by decide)]

theorem f64tou32Result_undef_iff : statusOf (f64tou32Result a) = .undef ↔ ¬ HoldsU32 a := by
  rw [holdsU32_iff]
  cases f64tou32Result a <;> simp

end

/-! ### The status of every operation -/

/-- An operation answers `UNDEF` exactly under the causes of R75. -/
theorem operate_undef_iff (i : Instr) (draw : Nat) (a b c : Word) :
    statusOf (operate i draw a b c) = .undef ↔ UndefCause i a b c := by
  rw [undefCause_iff]
  unfold operate
  cases i with
  | tzcnt_32 | tzcnt_64 | idxlsb_32 | idxlsb_64 | lzcnt_32 | lzcnt_64 | idxmsb_32 | idxmsb_64 | msb_32 | msb_64
  | log2_32 | log2_64 | flp2_32 | flp2_64 =>
    rw [operandTooWide_one rfl]
    exact withOperand_nonzero_undef_iff (by decide)
  | clp2_32 | clp2_64 =>
    rw [operandTooWide_one rfl]
    exact clp2Result_undef_iff (by decide)
  | idxbit_32 | idxbit_64 =>
    rw [operandTooWide_one rfl]
    exact idxbitResult_undef_iff (by decide)
  | idxexp_32 | idxexp_64 =>
    rw [operandTooWide_one rfl]
    exact idxexpResult_undef_iff (by decide)
  | u32tou24 =>
    rw [operandTooWide_one rfl]
    exact u32tou24Result_undef_iff
  | f64tou32 =>
    rw [operandTooWide_one rfl, or_iff_right (fits_64_ne_false a)]
    exact f64tou32Result_undef_iff
  | bext_32 | bext_64 =>
    have hother : ¬ (fits b 64 = false ∨ fits c 64 = false) := by simp [fits_64]
    rw [operandTooWide_three rfl, or_iff_left hother]
    exact bextResult_undef_iff
  | f16tof32 =>
    rw [operandTooWide_one rfl]
    exact f16tof32Result_undef_iff.trans (or_iff_left id).symm
  | intl2_32 | intl2_64 =>
    rw [operandTooWide_two rfl]
    exact withOperand_two_undef_iff.trans (or_iff_left id).symm
  | sel_32 | sel_64 | fmake_h | fmake_f | fmake_d | funpack fs fe fm =>
    rw [operandTooWide_three rfl]
    exact withOperand_three_undef_iff.trans (or_iff_left id).symm
  | _ =>
    rw [operandTooWide_one rfl]
    exact withOperand_one_undef_iff.trans (or_iff_left id).symm

theorem State.answer_st_eq_one_iff {s : State} {res : Result} : (s.answer res).st = 1 ↔ statusOf res = .undef := by
  cases res <;> simp

theorem State.answer_st_eq_zero_iff {s : State} {res : Result} : (s.answer res).st = 0 ↔ statusOf res ≠ .undef := by
  cases res <;> simp

/-- An answer with status `UNDEF` is the fault report and nothing else (R7, R75). -/
theorem State.answer_eq_raise {s : State} {res : Result} (h : (s.answer res).st = 1) : s.answer res = s.raise .undef := by
  cases res with
  | ok v => simp at h
  | error reason => rfl

/-- A legal request presented to an idle unit is answered by its operation. -/
theorem step_of_presents_legal {s : State} {q : Request} {rest : List HostInput} {i : Instr} (h : s.Presents q rest)
    (hi : decode q.cmd = .ok i) : step s = .next ((s.accept q rest).answer (operate i s.draws q.a q.b q.c)) := by
  rw [step_of_presents h, serve_of_decode (s := s.accept q rest) hi, exec_of_wf (wf_of_decode hi)]
  rfl

/-- Settles O17: an illegal command decodes to no instruction, and a legal one is answered by its operation, which is
`UNDEF` exactly under the causes of R75. -/
theorem statusIsByCommandThenOperands : Obligations.StatusIsByCommandThenOperands := by
  intro s q rest h
  by_cases hq : IllegalCommand q.cmd
  · refine ⟨_, step_of_presents_illegal h hq, ?_⟩
    have hnone : ∀ i, decode q.cmd ≠ .ok i := not_exists.1 (illegalCommand_iff.1 hq)
    simp [hq, hnone]
  · obtain ⟨i, hi⟩ := not_not.1 (mt illegalCommand_iff.2 hq)
    have honly (p : Instr → Prop) : (∃ j, decode q.cmd = .ok j ∧ p j) ↔ p i := by simp [hi]
    refine ⟨_, step_of_presents_legal h hi, iff_of_false ?_ hq, ?_, ?_, State.answer_eq_raise⟩
    · rw [State.answer_st]
      exact statusOf_code_ne_two _
    · rw [honly, State.answer_st_eq_one_iff, operate_undef_iff]
    · rw [honly, State.answer_st_eq_zero_iff, ne_eq, operate_undef_iff]

end Sys2Proof.Machine
end

/-! ## Reset drops the request in flight: O13 -/
section

namespace Sys2Proof.Machine

/-- After reset the unit is idle, so it is presented with what the host does next (R84). -/
theorem State.applyReset_presents (s : State) (q : Request) (rest : List HostInput) :
    (s.applyReset (.request q :: rest)).Presents q rest :=
  ⟨rfl, rfl⟩

/-- Settles O13: reset leaves the unit idle whatever was in flight, and an idle unit answers the request presented next
as if alone. -/
theorem resetDropsTheRequestInFlight : Obligations.ResetDropsTheRequestInFlight := by
  refine ⟨?dropped, ?firstAfter⟩
  case dropped =>
    intro s rest h
    exact ⟨_, step_of_reset h, rfl, rfl, rfl⟩
  case firstAfter =>
    intro s q rest h
    obtain ⟨r, st, hs, halone⟩ := step_of_presents_as_alone (s.applyReset_presents q rest)
    exact ⟨_, (core_run_succ 1 (step_of_reset h)).trans (core_run_succ 0 hs), rfl, rfl, halone⟩

end Sys2Proof.Machine
end
